-- ==== Sys2Proof/Word.lean ====
section
/-! DEFINITION. The word types of the four links: a byte (one character's data), a character and a two-byte field
(spec/09_serial_links.md, R173, R176). Torques and shares are exact integers and naturals inside the part
(log 12); they are words only on a link. -/

namespace Sys2Proof

/-- The data of one character (R173). -/
abbrev Byte := BitVec 8

/-- One character on a line (R173), bit 1 of the rule's table at position 0: start, eight data bits, mark, parity, stop. -/
abbrev LineCharacter := BitVec 12

/-- A two-byte field, and the 16 flag positions of R183. -/
abbrev Half := BitVec 16

end Sys2Proof
end

