-- ==== Sys2Proof/Config.lean ====
section
/-! DEFINITION. The capacities and fixed figures of the ARG2460 (spec/00_scope.md, Principal figures, and the rules
named at each), and the types of the configuration sections of spec/07_configuration.md. The WORKING configuration that
CONFIGURE writes is state (Machine/State.lean). The spec leaves no result of any step open, so this file holds no free
value. -/

namespace Sys2Proof

/-- The edge actions of POLICY (R9, R153). -/
inductive EdgeAction where
  | clamp
  | refuse
  deriving DecidableEq, Repr

/-- The excess settings of POLICY (R80, R153). -/
inductive ExcessSetting where
  | spill
  | shed
  deriving DecidableEq, Repr

/-- The replacement policies of POLICY (R11, R153). -/
inductive Replacement where
  | replace
  | tighten
  deriving DecidableEq, Repr

/-- The ENVELOPE section (R152). -/
structure Envelope where
  frontUpper : Int
  frontLower : Int
  rearUpper : Int
  rearLower : Int
  totalUpper : Int
  totalLower : Int
  deriving DecidableEq, Repr

/-- The POLICY section (R153). -/
structure Policy where
  upperAction : EdgeAction
  lowerAction : EdgeAction
  ceilingExcess : ExcessSetting
  floorExcess : ExcessSetting
  demandReplacement : Replacement
  stabilityReplacement : Replacement
  deriving DecidableEq, Repr

/-- The MOTION section (R154). -/
structure Motion where
  shareSlew : Nat
  frontSlew : Nat
  rearSlew : Nat
  lapseSlew : Nat
  deriving DecidableEq, Repr

/-- The TIMING section (R155): ms, ms, tens of microseconds, misses, answers, allocations. -/
structure Timing where
  lapseTime : Nat
  lapseStep : Nat
  windowCount : Nat
  missLimit : Nat
  rejoinCount : Nat
  orphanLifetime : Nat
  deriving DecidableEq, Repr

namespace Config

/-- A master receive queue holds up to 4 frames (R180). -/
abbrev receiveQueueSize : Nat := 4

/-- A reply queue holds at most 4 replies (R159). -/
abbrev replyQueueSize : Nat := 4

/-- The claim table holds at most 16 entries (R4). -/
abbrev tableSize : Nat := 16

/-- At most 12 entries have a master source (R4, R12). -/
abbrev masterClaims : Nat := 12

/-- At most four hold records have origin MASTER (R52, R54). -/
abbrev masterHolds : Nat := 4

/-- One LIST CLAIMS reply reports at most three entries (R165). -/
abbrev listedClaims : Nat := 3

/-- The longest claim lifetime (R6, R8). -/
abbrev maxLifetime : Nat := 250

/-- The largest share (00_scope.md, Quantities). -/
abbrev maxShare : Nat := 1000

/-- The largest axle torque magnitude (R8). -/
abbrev maxAxleTorque : Int := 16000

/-- The largest total torque magnitude (R8, R132). -/
abbrev maxTotalTorque : Int := 32000

/-- The largest speed magnitude, in 0.1 km/h (R132). -/
abbrev maxSpeed : Int := 2000

/-- The largest front load ratio (R132). -/
abbrev maxLoad : Nat := 100

/-- The result record carries the unplaced torque within this magnitude (R90). -/
abbrev maxCarriedUnplaced : Int := 32767

/-- The longest payload (R176). -/
abbrev maxPayload : Nat := 24

end Config

end Sys2Proof
end

