-- ==== Sys2Proof/Syntax.lean ====
section
/-! DEFINITION. The commands: one constructor per row of spec/opcode_table.json. A row is one whole step of the part
(spec/95_what_each_step_holds.md). A request row names the master port whose decoder takes the request; the request's
fields are those of the frame at the head of that port's receive queue, read in the layouts of R183 (log 4). -/

namespace Sys2Proof

/-- The two master links (00_scope.md). -/
inductive MasterId where
  | demand
  | stability
  deriving DecidableEq, Repr

/-- The two axle links, and the two axles (00_scope.md). -/
inductive AxleId where
  | front
  | rear
  deriving DecidableEq, Repr

/-- The four links. -/
inductive Link where
  | master (p : MasterId)
  | axle (a : AxleId)
  deriving DecidableEq, Repr

/-- The other master link. -/
def MasterId.other : MasterId → MasterId
  | .demand => .stability
  | .stability => .demand

/-- The other axle. -/
def AxleId.other : AxleId → AxleId
  | .front => .rear
  | .rear => .front

/-- What the receiver makes of the twelve bits of a character (R173, R177): a start bit found high is noise, a low stop
bit a FRAMING fault, a wrong parity a PARITY fault; any other character is correct and carries its mark and data. -/
inductive Reception where
  | noise
  | framing
  | parity
  | correct (marked : Bool) (data : Byte)
  deriving DecidableEq, Repr

/-- What a receiver found wrong (R178; log 16). A faulty character is given by its bits, which decide between FRAMING and
PARITY. TRUNCATED here is a MARKED character inside a frame, which begins the next frame with its own kind code (R177);
the idle gap is the row FRAME_GAP_TIMEOUT. -/
inductive FaultCause where
  | character (c : LineCharacter)
  | check
  | length
  | truncated (kind : Byte)
  | stray
  deriving DecidableEq, Repr

/-- A frame without its length and check characters, which its payload determines (R176). -/
structure Frame where
  kind : Byte
  payload : List Byte
  deriving DecidableEq, Repr

/-- The fields of a DEMAND (R132). -/
structure DemandFields where
  sequence : Byte
  total : Int
  speed : Int
  load : Nat
  spare : Byte
  deriving DecidableEq, Repr

/-- The fields of a CLAIM (R6), as carried. -/
structure ClaimFields where
  axle : Byte
  kind : Byte
  value : Int
  lifetime : Nat
  tag : Byte
  spare : Byte
  deriving DecidableEq, Repr

/-- The fields of a HOLD (R54), as carried. -/
structure HoldFields where
  indication : Byte
  share : Nat
  tag : Byte
  deriving DecidableEq, Repr

/-- The fields of a MAP WRITE (R36). -/
structure MapWriteFields where
  row : Nat
  column : Nat
  count : Nat
  values : List Nat
  deriving DecidableEq, Repr

/-- The fields of a FEEDBACK (heading FEEDBACK from the inverter of 05_axle_links_and_axle_supervision.md, R183). -/
structure FeedbackFields where
  sequence : Byte
  ready : Bool
  delivered : Int
  speed : Int
  ceilingPresent : Bool
  floorPresent : Bool
  clearCeiling : Bool
  clearFloor : Bool
  ceiling : Int
  floor : Int
  deriving DecidableEq, Repr

/-- A request with its fields, as a master sends it (R158, R183). -/
inductive Request where
  | demand (d : DemandFields)
  | claim (c : ClaimFields)
  | release (axle kind : Byte)
  | releaseAll
  | hold (h : HoldFields)
  | resume
  | envelope (e : Envelope)
  | policy (q : Policy)
  | motion (m : Motion)
  | timing (t : Timing)
  | loadBands (bands : List Nat)
  | speedBands (bands : List Nat)
  | alert (masks : Half) (mirror : Byte)
  | mapWrite (w : MapWriteFields)
  | mapFill (value : Nat)
  | mapRead (row : Nat)
  | status
  | listClaims (start : Nat)
  | listHolds
  | restart
  deriving DecidableEq, Repr

/-! ## What falls inside an allocation (R76, R95, R96; log 6) -/

/-- The parts of an allocation at which it reads or reaches another block: the claim-table act (R75), the read of each
axle supervisor (R76), the act of share control (R77), the writing of its records with its flags (R70, R82, R87), the
hand-over of each COMMAND record (R92) and of the result record to each mirror slot (R94). -/
inductive AllocPart where
  | claimTable
  | read (a : AxleId)
  | share
  | record
  | handOver (a : AxleId)
  | mirror (p : MasterId)
  deriving DecidableEq, Repr

/-- The events that can fall between two parts of an allocation: every row but the allocator's own (DEMAND, RESTART and
the two timer expiries, R73) and those of the RESET input. `request` is the taking of the head frame of a port. -/
inductive InnerEvent where
  | request (p : MasterId)
  | commandComplete (a : AxleId)
  | feedbackWindowExpiry (a : AxleId)
  | feedback (a : AxleId)
  | axleForeignFrame (a : AxleId)
  | frameReceived (p : MasterId)
  | receiveFault (l : Link) (c : FaultCause)
  | frameGapTimeout (l : Link)
  | masterLinkBreak (p : MasterId)
  | axleLinkBreak (a : AxleId)
  | linkUp (l : Link)
  | masterFrameSent (p : MasterId)
  | breakSent (l : Link)
  | characterReceived (l : Link) (marked : Bool) (data : Byte)
  deriving DecidableEq, Repr

/-- One moment of an allocation: a part of its own, or an event elsewhere. -/
inductive AllocMoment where
  | part (x : AllocPart)
  | event (e : InnerEvent)
  deriving DecidableEq, Repr

/-- The commands, in the order of spec/opcode_table.json. -/
inductive Instr where
  /-- DEMAND (R133): the decoder of `p` takes a DEMAND request. -/
  | demand (p : MasterId)
  /-- CLAIM (R6). -/
  | claim (p : MasterId)
  /-- RELEASE (R15). -/
  | release (p : MasterId)
  /-- RELEASE ALL (R16). -/
  | releaseAll (p : MasterId)
  /-- HOLD (R54). -/
  | hold (p : MasterId)
  /-- RESUME (R57). -/
  | resume (p : MasterId)
  /-- CONFIGURE with section identifier 1 (R152). -/
  | configureEnvelope (p : MasterId)
  /-- CONFIGURE with section identifier 2 (R153). -/
  | configurePolicy (p : MasterId)
  /-- CONFIGURE with section identifier 3 (R154). -/
  | configureMotion (p : MasterId)
  /-- CONFIGURE with section identifier 4 (R155). -/
  | configureTiming (p : MasterId)
  /-- CONFIGURE with section identifier 5 (R156). -/
  | configureLoadBands (p : MasterId)
  /-- CONFIGURE with section identifier 6 (R156). -/
  | configureSpeedBands (p : MasterId)
  /-- CONFIGURE with section identifier 7 (R157). -/
  | configureAlert (p : MasterId)
  /-- MAP WRITE (R36). -/
  | mapWrite (p : MasterId)
  /-- MAP FILL (R37). -/
  | mapFill (p : MasterId)
  /-- MAP READ (R38). -/
  | mapRead (p : MasterId)
  /-- STATUS (R163). -/
  | status (p : MasterId)
  /-- LIST CLAIMS (R165). -/
  | listClaims (p : MasterId)
  /-- LIST HOLDS (R67). -/
  | listHolds (p : MasterId)
  /-- RESTART (R143). -/
  | restart (p : MasterId)
  /-- A frame of unknown kind is taken (R160). -/
  | unknownRequest (p : MasterId)
  /-- The lapse timer expires (R136). -/
  | lapseTimerExpiry
  /-- The lapse-step timer expires (R138). -/
  | lapseStep
  /-- The check character of a COMMAND frame has been sent (R102). -/
  | commandComplete (a : AxleId)
  /-- The feedback window timer expires (R114). -/
  | feedbackWindowExpiry (a : AxleId)
  /-- A well-formed FEEDBACK completes (R104). -/
  | feedback (a : AxleId)
  /-- A well-formed frame of another kind completes on an axle link (R105). -/
  | axleForeignFrame (a : AxleId)
  /-- A well-formed frame completes on a master link (R180). -/
  | frameReceived (p : MasterId)
  /-- A receive fault is detected (R178). -/
  | receiveFault (l : Link) (c : FaultCause)
  /-- The line has been idle for more than two character times (R177). -/
  | frameGapTimeout (l : Link)
  /-- A break is detected on a master link (R171, R175). -/
  | masterLinkBreak (p : MasterId)
  /-- A break is detected on an axle link (R120, R175). -/
  | axleLinkBreak (a : AxleId)
  /-- A receive line has been idle high for one character time (R174). -/
  | linkUp (l : Link)
  /-- A reply or mirror frame has been sent to its end (R167). -/
  | masterFrameSent (p : MasterId)
  /-- A break sent by the part has ended (R182). -/
  | breakSent (l : Link)
  /-- RESET goes low (R147). -/
  | resetAssert
  /-- RESET goes high, with these levels of the straps BRS1 and BRS0 (R147, R173). -/
  | resetRelease (brs1 brs0 : Bool)
  /-- A correct character arrives: its mark bit and its data (R177). -/
  | characterReceived (l : Link) (marked : Bool) (data : Byte)
  /-- CONFIGURE with a section identifier that is not 1 to 7 (R150). -/
  | configureUnknownSection (p : MasterId)
  deriving DecidableEq, Repr

end Sys2Proof
end

