-- ==== Sys2Proof/Machine/State.lean ====
section
/-! DEFINITION. The state of the ARG2460: every register, queue, slot, counter, timer, mode and output line that spec/
names, as plain data, with its power-on values; and the queue of waiting commands, which is the model's own (log 1). -/

namespace Sys2Proof.Machine

/-! ## Links and frames -/

/-- The link states (R174). -/
inductive LinkState where
  | down
  | up
  | broken
  deriving DecidableEq, Repr

/-- The receiver's assembly state (R177), which the spec gives while the link is UP; on a link that is not UP the model
holds `idle` (DESIGN CHOICE, log 18). ASSEMBLING is split by what the next unmarked character is: the length, or a
payload byte or the check character of a frame of payload length `len` whose first bytes are `got`. -/
inductive Receiver where
  | idle
  | awaitLength (kind : Byte)
  | awaitPayload (kind : Byte) (len : Nat) (got : List Byte)
  | discarding
  deriving DecidableEq, Repr

/-- The kinds of link fault that a master port records (R169). `brk` is BREAK; NONE is the absent kind. -/
inductive LinkFault where
  | framing
  | parity
  | check
  | length
  | truncated
  | stray
  | brk
  deriving DecidableEq, Repr

/-- The bit rates (R173), in kbit/s. -/
inductive BitRate where
  | kbit250
  | kbit500
  | kbit1000
  | kbit2000
  deriving DecidableEq, Repr

/-- A timer: stopped, or running for the duration read when it was started (R123, R135, R149). -/
inductive Timer where
  | stopped
  | running (duration : Nat)
  deriving DecidableEq, Repr

/-! ## Allocation -/

/-- The allocator states (R129). -/
inductive AllocState where
  | unconfigured
  | ready
  | running
  | lapsed
  deriving DecidableEq, Repr

/-- The axle states (R98). -/
inductive AxleState where
  | offline
  | rejoining
  | online
  | suspect
  deriving DecidableEq, Repr

/-- The mode of a COMMAND (R88). -/
inductive Mode where
  | standby
  | drive
  deriving DecidableEq, Repr

/-- The limit codes (R86). -/
inductive LimitCode where
  | free
  | slew
  | ceiling
  | floor
  | inverted
  | standby
  deriving DecidableEq, Repr

/-- The result codes (R162). -/
inductive ResultCode where
  | accepted
  | clamped
  | notPermitted
  | notConfigured
  | wrongState
  | badField
  | outsideEnvelope
  | looser
  | tableFull
  | noSuchClaim
  | stackFull
  | stackEmpty
  | notHolder
  | claimsPresent
  | unknownRequest
  deriving DecidableEq, Repr

/-- One COMMAND record (R88). -/
structure CommandRecord where
  sequence : Byte
  mode : Mode
  torque : Int
  ceiling : Int
  floor : Int
  deriving DecidableEq, Repr

/-- The part of an allocation result record that one axle fills (R89). -/
structure AxleResult where
  command : Int
  limit : LimitCode
  state : AxleState
  delivered : Int
  speed : Int
  deriving DecidableEq, Repr

/-- The allocation result record (R89, R90). `unplaced` is the value as carried, within -32,767 to +32,767. -/
structure ResultRecord where
  code : ResultCode
  sequence : Byte
  demandSequence : Byte
  state : AllocState
  unplaced : Int
  liveShare : Nat
  front : AxleResult
  rear : AxleResult
  deriving DecidableEq, Repr

/-! ## The claim table (R1) -/

/-- The sources of claims (00_scope.md, Sources, axles and claim kinds). -/
inductive Source where
  | demand
  | stability
  | finv
  | rinv
  deriving DecidableEq, Repr

/-- What a claim limits. -/
inductive ClaimAxle where
  | front
  | rear
  | total
  deriving DecidableEq, Repr

/-- The claim kinds. -/
inductive ClaimKind where
  | ceiling
  | floor
  | slew
  deriving DecidableEq, Repr

/-- One claim entry (R1). An absent lifetime is a persistent entry. -/
structure ClaimEntry where
  source : Source
  axle : ClaimAxle
  kind : ClaimKind
  value : Int
  lifetime : Option Nat
  tag : Byte
  clamped : Bool
  orphaned : Bool
  governing : Bool
  deriving DecidableEq, Repr

/-- The edges of a band as the claim-table act computes them (R26), before any pinning (R28). -/
structure Band where
  ceiling : Int
  floor : Int
  deriving DecidableEq, Repr

/-- The FRONT and REAR bands that the table keeps as the last band record (R30). -/
structure LastBands where
  front : Band
  rear : Band
  deriving DecidableEq, Repr

/-! ## The hold stack (R51) and share control (R40) -/

inductive Holder where
  | demandPort
  | stabilityPort
  | allocator
  deriving DecidableEq, Repr

inductive Origin where
  | master
  | lapse
  deriving DecidableEq, Repr

/-- One hold record (R51). -/
structure HoldRecord where
  holder : Holder
  origin : Origin
  share : Nat
  captured : Bool
  tag : Byte
  deriving DecidableEq, Repr

/-- The forced marker (R40). -/
inductive ForcedMarker where
  | none
  | front
  | rear
  deriving DecidableEq, Repr

/-! ## Alerts -/

/-- The fourteen event flags (R168), in the order of their positions (R183). -/
inductive EventFlag where
  | claimLapsed
  | claimOrphaned
  | holdRemoved
  | linkFault
  | frameDropped
  | inverterClaimAdjusted
  | bandInverted
  | unplaced
  | axleDown
  | axleUp
  | axleLinkFault
  | commandSuperseded
  | staleFeedback
  | demandLapse
  deriving DecidableEq, Repr

/-- One alert unit (R157, R168, R169, R170). Flags and masks are at the positions of R183. -/
structure AlertUnit where
  flags : Half
  masks : Half
  mirrorEnable : Bool
  lastFault : Option LinkFault
  alertLine : Bool
  deriving DecidableEq, Repr

/-! ## Ports and axle supervisors -/

/-- A master port's transmitter (R167, R182). A frame being sent carries the mark that a RESTART's break follows it. -/
inductive MasterTx where
  | idle
  | sending (frame : Frame) (breakAfter : Bool)
  | breaking
  deriving DecidableEq, Repr

/-- A master port with its decoder and alert unit (00_scope.md, Blocks 1, 2 and 9). -/
structure MasterPort where
  link : LinkState
  receiver : Receiver
  rxQueue : List Frame
  waitingForRoom : Bool
  holdoff : Bool
  replyQueue : List Frame
  mirrorSlot : Option ResultRecord
  tx : MasterTx
  alert : AlertUnit
  deriving DecidableEq, Repr

/-- An axle port's transmitter (R101, R102, R124, R182). A COMMAND being sent carries the mark that a RESTART was taken
during it: its completion then only starts the break. -/
inductive AxleTx where
  | idle
  | sending (record : CommandRecord) (restarted : Bool)
  | breaking
  deriving DecidableEq, Repr

/-- An axle supervisor with its port (R97). The window timer's duration is in microseconds. -/
structure AxleUnit where
  link : LinkState
  receiver : Receiver
  tx : AxleTx
  slot : Option CommandRecord
  state : AxleState
  missCount : Nat
  goodCount : Nat
  outstanding : Option Byte
  lastCommanded : Int
  lastDelivered : Int
  lastSpeed : Int
  window : Timer
  deriving DecidableEq, Repr

/-! ## The allocator and the configuration store -/

/-- The allocator (R70, R129). The timers' durations are in milliseconds. -/
structure Allocator where
  state : AllocState
  settled : Bool
  lapseTimer : Timer
  lapseStepTimer : Timer
  counter : Byte
  lastSpeed : Int
  lastLoad : Nat
  lastClipped : Int
  lastResult : Option ResultRecord
  deriving DecidableEq, Repr

/-- The configuration store (R149). -/
structure ConfigStore where
  envelope : Envelope
  policy : Policy
  motion : Motion
  timing : Timing
  loadBands : List Nat
  speedBands : List Nat
  deriving DecidableEq, Repr

/-! ## The whole part -/

/-- The state of the part, and two fields of the model's own: the commands that wait to be taken, first in, first out
(log 1), and for each of the next allocations what falls inside it, in the order in which it comes (log 6). The map's
cell of row `r` and column `c` stands at index 8 r + c (R32). The hold stack stands bottom first (R52). -/
structure State where
  pending : List Instr
  inside : List (List AllocMoment)
  resetAsserted : Bool
  bitRate : BitRate
  demandPort : MasterPort
  stabilityPort : MasterPort
  front : AxleUnit
  rear : AxleUnit
  table : List ClaimEntry
  lastBands : Option LastBands
  map : Vector Nat 64
  liveShare : Nat
  forced : ForcedMarker
  lastGoverning : Nat
  holds : List HoldRecord
  alloc : Allocator
  config : ConfigStore
  deriving DecidableEq, Repr

/-- Why a step could stop with a fault. The spec gives the part no machine fault: a request that fails is answered with
a refusal code (R162) and a receive fault sets a flag (R178). No step raises one. -/
inductive Fault where
  deriving DecidableEq, Repr

/-- Why a step is refused. -/
inductive Refusal where
  /-- `exec` raises it for a command that has no meaning yet; safe. Every command has its meaning. -/
  | notModelled (mnemonic : String)
  deriving DecidableEq, Repr

/-! ## Power-on values -/

/-- An alert unit at power-on (R172). -/
def AlertUnit.powerOn : AlertUnit where
  flags := 0#16
  masks := 0#16
  mirrorEnable := false
  lastFault := none
  alertLine := false

/-- A master port while RESET is asserted (R147, R172, R174): the transmit line idle high. The spec gives the receiver no
assembly state while its link is not UP; the model holds IDLE there (DESIGN CHOICE, log 18). -/
def MasterPort.powerOn : MasterPort where
  link := .down
  receiver := .idle
  rxQueue := []
  waitingForRoom := false
  holdoff := false
  replyQueue := []
  mirrorSlot := none
  tx := .idle
  alert := .powerOn

/-- An axle supervisor and its port while RESET is asserted (R97, R126, R147). The spec gives the receiver no assembly
state while its link is not UP; the model holds IDLE there (DESIGN CHOICE, log 18). -/
def AxleUnit.powerOn : AxleUnit where
  link := .down
  receiver := .idle
  tx := .idle
  slot := none
  state := .offline
  missCount := 0
  goodCount := 0
  outstanding := none
  lastCommanded := 0
  lastDelivered := 0
  lastSpeed := 0
  window := .stopped

/-- The allocator at power-on (R70, R129). -/
def Allocator.powerOn : Allocator where
  state := .unconfigured
  settled := false
  lapseTimer := .stopped
  lapseStepTimer := .stopped
  counter := 0#8
  lastSpeed := 0
  lastLoad := 0
  lastClipped := 0
  lastResult := none

/-- The configuration defaults (R152 to R156). -/
def ConfigStore.powerOn : ConfigStore where
  envelope := { frontUpper := 4800, frontLower := -3200, rearUpper := 6400, rearLower := -4000,
                totalUpper := 11200, totalLower := -7200 }
  policy := { upperAction := .clamp, lowerAction := .clamp, ceilingExcess := .spill, floorExcess := .spill,
              demandReplacement := .replace, stabilityReplacement := .tighten }
  motion := { shareSlew := 25, frontSlew := 400, rearSlew := 400, lapseSlew := 600 }
  timing := { lapseTime := 12, lapseStep := 2, windowCount := 60, missLimit := 3, rejoinCount := 4,
              orphanLifetime := 50 }
  loadBands := [45, 55]
  speedBands := [20, 60]

/-- The part while RESET is asserted (R147). The bit rate is the one of both straps low until a release reads the straps
(DESIGN CHOICE, log 2; it enters no other rule of the model). -/
def State.powerOn : State where
  pending := []
  inside := []
  resetAsserted := true
  bitRate := .kbit250
  demandPort := .powerOn
  stabilityPort := .powerOn
  front := .powerOn
  rear := .powerOn
  table := []
  lastBands := none
  map := Vector.replicate 64 500
  liveShare := 500
  forced := .none
  lastGoverning := 500
  holds := []
  alloc := .powerOn
  config := .powerOn

/-- The part right after reset: RESET has just been released with both straps low (DESIGN CHOICE, log 2), and each of
the four transmitters sends its break (R147, R182). -/
def State.reset : State :=
  { State.powerOn with
    resetAsserted := false
    demandPort := { MasterPort.powerOn with tx := .breaking }
    stabilityPort := { MasterPort.powerOn with tx := .breaking }
    front := { AxleUnit.powerOn with tx := .breaking }
    rear := { AxleUnit.powerOn with tx := .breaking } }

end Sys2Proof.Machine
end

