-- ==== Sys2Proof/Machine/Ops.lean ====
section
/-! DEFINITION. The named operations over State: one home and one accessor for each port, axle supervisor and alert
unit, and the shared form of a meaning. -/

namespace Sys2Proof

open Machine

/-! ## The names that stand for one party in different chapters -/

/-- The claim source of a master link (R6). -/
def MasterId.source : MasterId → Source
  | .demand => .demand
  | .stability => .stability

/-- The holder of a MASTER record pushed on a port (R55). -/
def MasterId.holder : MasterId → Holder
  | .demand => .demandPort
  | .stability => .stabilityPort

/-- The claim source of an axle's inverter (00_scope.md). -/
def AxleId.source : AxleId → Source
  | .front => .finv
  | .rear => .rinv

/-- The claim axle of an axle. -/
def AxleId.claimAxle : AxleId → ClaimAxle
  | .front => .front
  | .rear => .rear

end Sys2Proof

namespace Sys2Proof.Machine

/-- The outcome of a step of this part. -/
abbrev Result := Host.Outcome State Fault Refusal

/-! ## Ports and axle supervisors -/

/-- The master port of a link. -/
def State.master (s : State) : MasterId → MasterPort
  | .demand => s.demandPort
  | .stability => s.stabilityPort

/-- The state with a master port replaced. -/
def State.setMaster (s : State) (p : MasterId) (m : MasterPort) : State :=
  match p with
  | .demand => { s with demandPort := m }
  | .stability => { s with stabilityPort := m }

/-- The state with a master port changed by `g`. -/
def State.onMaster (s : State) (p : MasterId) (g : MasterPort → MasterPort) : State :=
  s.setMaster p (g (s.master p))

/-- The axle supervisor, with its port, of an axle. -/
def State.axle (s : State) : AxleId → AxleUnit
  | .front => s.front
  | .rear => s.rear

/-- The state with an axle supervisor replaced. -/
def State.setAxle (s : State) (a : AxleId) (u : AxleUnit) : State :=
  match a with
  | .front => { s with front := u }
  | .rear => { s with rear := u }

/-- The state with an axle supervisor changed by `g`. -/
def State.onAxle (s : State) (a : AxleId) (g : AxleUnit → AxleUnit) : State :=
  s.setAxle a (g (s.axle a))

/-- The receiver of a link. -/
def State.receiverOf (s : State) : Link → Receiver
  | .master p => (s.master p).receiver
  | .axle a => (s.axle a).receiver

/-- The link state of a link. -/
def State.linkOf (s : State) : Link → LinkState
  | .master p => (s.master p).link
  | .axle a => (s.axle a).link

/-- The state with a link's receiver replaced. -/
def State.setReceiver (s : State) (l : Link) (r : Receiver) : State :=
  match l with
  | .master p => s.onMaster p fun m => { m with receiver := r }
  | .axle a => s.onAxle a fun u => { u with receiver := r }

/-- The state with a link's link state replaced. -/
def State.setLink (s : State) (l : Link) (x : LinkState) : State :=
  match l with
  | .master p => s.onMaster p fun m => { m with link := x }
  | .axle a => s.onAxle a fun u => { u with link := x }

/-- The master link of a source, for the two master sources. -/
def Source.master? : Source → Option MasterId
  | .demand => some .demand
  | .stability => some .stability
  | .finv => none
  | .rinv => none

/-- An axle is available when its state is ONLINE or SUSPECT (R76). -/
def AxleState.available : AxleState → Bool
  | .online => true
  | .suspect => true
  | .offline => false
  | .rejoining => false

/-! ## The shared form of a meaning -/

/-- While RESET is asserted every block is held at its power-on values, so no event but the release of RESET changes
the part (R147; log 9). -/
def whileReleased (s : State) (k : State → State) : Result :=
  .next (if s.resetAsserted then s else k s)

end Sys2Proof.Machine
end

