-- ==== Sys2Proof/Machine/Flags.lean ====
section
/-! DEFINITION. The event flags, the last fault kind and the ALERT line (R157, R163, R168 to R170). -/

namespace Sys2Proof.Machine

/-- The position of a flag in the flag set and in the masks (R183). -/
def EventFlag.position : EventFlag → Nat
  | .claimLapsed => 0
  | .claimOrphaned => 1
  | .holdRemoved => 2
  | .linkFault => 3
  | .frameDropped => 4
  | .inverterClaimAdjusted => 5
  | .bandInverted => 6
  | .unplaced => 7
  | .axleDown => 8
  | .axleUp => 9
  | .axleLinkFault => 10
  | .commandSuperseded => 11
  | .staleFeedback => 12
  | .demandLapse => 13

/-- The flag set that holds one flag. -/
def EventFlag.bit (f : EventFlag) : Half :=
  BitVec.twoPow 16 f.position

/-- Whether a flag is set in an alert unit. -/
def AlertUnit.isSet (u : AlertUnit) (f : EventFlag) : Bool :=
  u.flags.getLsbD f.position

/-- The ALERT line is asserted while at least one flag is set and unmasked (R170). -/
def AlertUnit.judge (u : AlertUnit) : AlertUnit :=
  { u with alertLine := u.flags &&& ~~~u.masks != 0#16 }

/-- A flag is set and the line judged anew (R168, R170). -/
def AlertUnit.raise (f : EventFlag) (u : AlertUnit) : AlertUnit :=
  ({ u with flags := u.flags ||| f.bit }).judge

/-- The flag set is cleared, the last fault kind becomes absent and the line is judged anew (R163, R171). -/
def AlertUnit.clear (u : AlertUnit) : AlertUnit :=
  ({ u with flags := 0#16, lastFault := none }).judge

/-- LINK_FAULT is set and the fault's kind recorded (R169). -/
def AlertUnit.recordFault (k : LinkFault) (u : AlertUnit) : AlertUnit :=
  ({ u with lastFault := some k }).raise .linkFault

/-- New masks and mirror enable, the line judged anew (R157). -/
def AlertUnit.configure (masks : Half) (mirror : Bool) (u : AlertUnit) : AlertUnit :=
  ({ u with masks := masks, mirrorEnable := mirror }).judge

/-- A master port's alert unit changed by `g`. -/
def State.onAlert (s : State) (p : MasterId) (g : AlertUnit → AlertUnit) : State :=
  s.onMaster p fun m => { m with alert := g m.alert }

/-- A flag is set in one port's set. -/
def raise (p : MasterId) (f : EventFlag) (s : State) : State :=
  s.onAlert p (AlertUnit.raise f)

/-- A flag routed to both master ports is set in each set (R168). -/
def raiseBoth (f : EventFlag) (s : State) : State :=
  raise .stability f (raise .demand f s)

/-- A flag is set in both sets when the condition holds. -/
def raiseBothIf (c : Bool) (f : EventFlag) (s : State) : State :=
  if c then raiseBoth f s else s

/-- A flag is set in one set when the condition holds. -/
def raiseIf (c : Bool) (p : MasterId) (f : EventFlag) (s : State) : State :=
  if c then raise p f s else s

end Sys2Proof.Machine
end

