-- ==== Sys2Proof/Decode.lean ====
section
/-! DEFINITION. What a character and a frame mean: the bits of a character (R173), the fields of a frame's payload (R183), the kind codes of R158 and R176, the row of
the command table that takes a request frame (R158, R160), the payload lengths that a receiver allows (R179), and the
frames of the requests. No row of spec/opcode_table.json has bits, so `decodeTableWord` answers none. -/

namespace Sys2Proof

/-! ## Fields of a payload (R176, R183) -/

/-- The two bytes of a field, most significant first (R176). -/
def halfBytes (h : Half) : List Byte :=
  [h.extractLsb' 8 8, h.extractLsb' 0 8]

/-- A signed two-byte field, in two's complement (R176). -/
def signedBytes (v : Int) : List Byte :=
  halfBytes (BitVec.ofInt 16 v)

/-- An unsigned two-byte field. -/
def unsignedBytes (n : Nat) : List Byte :=
  halfBytes (BitVec.ofNat 16 n)

/-- A one-byte field. -/
def byteOf (n : Nat) : Byte :=
  BitVec.ofNat 8 n

/-- Payload byte `i`; a byte past the payload's end reads 0 (log 13: no such frame comes through a receiver). -/
def Frame.byteAt (f : Frame) (i : Nat) : Byte :=
  f.payload.getD i 0

/-- Payload byte `i` as a count. -/
def Frame.natAt (f : Frame) (i : Nat) : Nat :=
  (f.byteAt i).toNat

/-- The two-byte field at payload byte `i`. -/
def Frame.halfAt (f : Frame) (i : Nat) : Half :=
  f.byteAt i ++ f.byteAt (i + 1)

/-- The signed two-byte field at payload byte `i`. -/
def Frame.signedAt (f : Frame) (i : Nat) : Int :=
  (f.halfAt i).toInt

/-- The unsigned two-byte field at payload byte `i`. -/
def Frame.unsignedAt (f : Frame) (i : Nat) : Nat :=
  (f.halfAt i).toNat

/-- The two-byte values of a byte list, in order; an odd last byte carries no value. -/
def unsignedList : List Byte → List Nat
  | hi :: lo :: rest => (hi ++ lo).toNat :: unsignedList rest
  | _ => []

/-! ## Kind codes (R158, R176) -/

namespace Kind

def demand : Byte := 0x21#8
def claim : Byte := 0x31#8
def release : Byte := 0x32#8
def releaseAll : Byte := 0x33#8
def hold : Byte := 0x41#8
def resume : Byte := 0x42#8
def configure : Byte := 0x51#8
def mapWrite : Byte := 0x52#8
def mapRead : Byte := 0x53#8
def mapFill : Byte := 0x54#8
def status : Byte := 0x61#8
def listClaims : Byte := 0x62#8
def listHolds : Byte := 0x63#8
def restart : Byte := 0x7E#8
def mirror : Byte := 0xA0#8
def command : Byte := 0x11#8
def feedback : Byte := 0x91#8

end Kind

/-- The kind code of the reply to a request of kind `k` (R161): the highest bit set, and FFh where that would be the
mirror's kind code. -/
def replyKind (k : Byte) : Byte :=
  if k ||| 0x80#8 = Kind.mirror then 0xFF#8 else k ||| 0x80#8

/-! ## The fields of each request and of FEEDBACK (R183) -/

abbrev readDemand (f : Frame) : DemandFields where
  sequence := f.byteAt 0
  total := f.signedAt 1
  speed := f.signedAt 3
  load := f.natAt 5
  spare := f.byteAt 6

abbrev readClaim (f : Frame) : ClaimFields where
  axle := f.byteAt 0
  kind := f.byteAt 1
  value := f.signedAt 2
  lifetime := f.natAt 4
  tag := f.byteAt 5
  spare := f.byteAt 6

abbrev readHold (f : Frame) : HoldFields where
  indication := f.byteAt 0
  share := f.unsignedAt 1
  tag := f.byteAt 3

abbrev readMapWrite (f : Frame) : MapWriteFields where
  row := f.natAt 0
  column := f.natAt 1
  count := f.natAt 2
  values := unsignedList (f.payload.drop 3)

abbrev readEnvelope (f : Frame) : Envelope where
  frontUpper := f.signedAt 1
  frontLower := f.signedAt 3
  rearUpper := f.signedAt 5
  rearLower := f.signedAt 7
  totalUpper := f.signedAt 9
  totalLower := f.signedAt 11

/-- A list value of POLICY: 0 the first value named, 1 the second, any other code none (R153, R183). -/
def readChoice {α : Type} (first second : α) (b : Byte) : Option α :=
  if b = 0#8 then some first else if b = 1#8 then some second else none

def readPolicy (f : Frame) : Option Policy := do
  let upper ← readChoice .clamp .refuse (f.byteAt 1)
  let lower ← readChoice .clamp .refuse (f.byteAt 2)
  let ceiling ← readChoice .spill .shed (f.byteAt 3)
  let floor ← readChoice .spill .shed (f.byteAt 4)
  let demand ← readChoice .replace .tighten (f.byteAt 5)
  let stability ← readChoice .replace .tighten (f.byteAt 6)
  pure { upperAction := upper, lowerAction := lower, ceilingExcess := ceiling, floorExcess := floor,
         demandReplacement := demand, stabilityReplacement := stability }

abbrev readMotion (f : Frame) : Motion where
  shareSlew := f.unsignedAt 1
  frontSlew := f.unsignedAt 3
  rearSlew := f.unsignedAt 5
  lapseSlew := f.unsignedAt 7

abbrev readTiming (f : Frame) : Timing where
  lapseTime := f.natAt 1
  lapseStep := f.natAt 2
  windowCount := f.natAt 3
  missLimit := f.natAt 4
  rejoinCount := f.natAt 5
  orphanLifetime := f.natAt 6

/-- The breakpoints carried after the section identifier and the count (R183). -/
abbrev readBands (f : Frame) : List Nat :=
  (f.payload.drop 2).map BitVec.toNat

/-- FEEDBACK (R183): the derate ceiling stands at bytes 7 and 8 when present, the derate floor in the next two. -/
abbrev readFeedback (f : Frame) : FeedbackFields where
  sequence := f.byteAt 0
  ready := (f.byteAt 1).getLsbD 0
  delivered := f.signedAt 2
  speed := f.signedAt 4
  ceilingPresent := (f.byteAt 6).getLsbD 0
  floorPresent := (f.byteAt 6).getLsbD 1
  clearCeiling := (f.byteAt 6).getLsbD 2
  clearFloor := (f.byteAt 6).getLsbD 3
  ceiling := f.signedAt 7
  floor := f.signedAt (if (f.byteAt 6).getLsbD 0 then 9 else 7)

/-! ## The row that takes a request frame (R150, R158, R160) -/

/-- The command that takes frame `f` from the receive queue of port `p`. -/
def decodeRequest (p : MasterId) (f : Frame) : Instr :=
  if f.kind = Kind.demand then .demand p
  else if f.kind = Kind.claim then .claim p
  else if f.kind = Kind.release then .release p
  else if f.kind = Kind.releaseAll then .releaseAll p
  else if f.kind = Kind.hold then .hold p
  else if f.kind = Kind.resume then .resume p
  else if f.kind = Kind.configure then
    (if f.byteAt 0 = 1#8 then .configureEnvelope p
     else if f.byteAt 0 = 2#8 then .configurePolicy p
     else if f.byteAt 0 = 3#8 then .configureMotion p
     else if f.byteAt 0 = 4#8 then .configureTiming p
     else if f.byteAt 0 = 5#8 then .configureLoadBands p
     else if f.byteAt 0 = 6#8 then .configureSpeedBands p
     else if f.byteAt 0 = 7#8 then .configureAlert p
     else .configureUnknownSection p)
  else if f.kind = Kind.mapWrite then .mapWrite p
  else if f.kind = Kind.mapRead then .mapRead p
  else if f.kind = Kind.mapFill then .mapFill p
  else if f.kind = Kind.status then .status p
  else if f.kind = Kind.listClaims then .listClaims p
  else if f.kind = Kind.listHolds then .listHolds p
  else if f.kind = Kind.restart then .restart p
  else .unknownRequest p

/-- The request that a frame of a known kind carries. A POLICY section whose codes name no value, a CONFIGURE of an
unknown section and a frame of unknown kind carry none. -/
def readRequest (f : Frame) : Option Request :=
  match decodeRequest .demand f with
  | .demand _ => some (.demand (readDemand f))
  | .claim _ => some (.claim (readClaim f))
  | .release _ => some (.release (f.byteAt 0) (f.byteAt 1))
  | .releaseAll _ => some .releaseAll
  | .hold _ => some (.hold (readHold f))
  | .resume _ => some .resume
  | .configureEnvelope _ => some (.envelope (readEnvelope f))
  | .configurePolicy _ => (readPolicy f).map .policy
  | .configureMotion _ => some (.motion (readMotion f))
  | .configureTiming _ => some (.timing (readTiming f))
  | .configureLoadBands _ => some (.loadBands (readBands f))
  | .configureSpeedBands _ => some (.speedBands (readBands f))
  | .configureAlert _ => some (.alert (f.halfAt 1) (f.byteAt 3))
  | .mapWrite _ => some (.mapWrite (readMapWrite f))
  | .mapRead _ => some (.mapRead (f.natAt 0))
  | .mapFill _ => some (.mapFill (f.unsignedAt 0))
  | .status _ => some .status
  | .listClaims _ => some (.listClaims (f.natAt 0))
  | .listHolds _ => some .listHolds
  | .restart _ => some .restart
  | _ => none

/-! ## Payload lengths (R179) -/

/-- The payload lengths a receiver allows for a kind code on a link. -/
def lengthAllowed (l : Link) (kind : Byte) (n : Nat) : Bool :=
  decide (n ≤ Config.maxPayload) &&
  match l with
  | .axle _ => if kind = Kind.feedback then decide (n = 7 ∨ n = 9 ∨ n = 11) else true
  | .master _ =>
    if kind = Kind.demand ∨ kind = Kind.claim then decide (n = 7)
    else if kind = Kind.release ∨ kind = Kind.mapFill then decide (n = 2)
    else if kind = Kind.hold then decide (n = 4)
    else if kind = Kind.mapRead ∨ kind = Kind.listClaims then decide (n = 1)
    else if kind = Kind.releaseAll ∨ kind = Kind.resume ∨ kind = Kind.status ∨ kind = Kind.listHolds
        ∨ kind = Kind.restart then decide (n = 0)
    else if kind = Kind.configure then decide (1 ≤ n ∧ n ≤ 13)
    else if kind = Kind.mapWrite then decide (3 ≤ n ∧ n ≤ 19)
    else true

/-! ## The bits of a character (R173, R177) -/

/-- Whether a list of bits holds an odd number of ones. -/
def oddOnes (bits : List Bool) : Bool :=
  bits.foldl xor false

/-- The data bits of a byte, least significant first. -/
def dataBits (b : Byte) : List Bool :=
  (List.range 8).map b.getLsbD

/-- The character that carries a mark bit and a data byte: start low, data least significant first, mark, the parity that
makes the ones of data, mark and parity even, stop high (R173). -/
def lineCharacter (marked : Bool) (data : Byte) : LineCharacter :=
  BitVec.ofBool true ++ BitVec.ofBool (oddOnes (dataBits data ++ [marked])) ++ BitVec.ofBool marked ++ data
    ++ BitVec.ofBool false

/-- The data of a character. -/
def characterData (c : LineCharacter) : Byte :=
  c.extractLsb' 1 8

/-- What the receiver makes of a character: where stop bit and parity are both wrong the fault is FRAMING (R177). -/
def readCharacter (c : LineCharacter) : Reception :=
  if c.getLsbD 0 then .noise
  else if !c.getLsbD 11 then .framing
  else if oddOnes (dataBits (characterData c) ++ [c.getLsbD 9, c.getLsbD 10]) then .parity
  else .correct (c.getLsbD 9) (characterData c)

/-! ## The characters of a frame (R176) -/

/-- The sum of the bytes of a frame before its check character, modulo 256. -/
def Frame.sum (f : Frame) : Byte :=
  (f.kind :: byteOf f.payload.length :: f.payload).foldl (· + ·) 0#8

/-- The check character, which brings the sum of all bytes of the frame to 0 modulo 256. -/
def Frame.check (f : Frame) : Byte :=
  - f.sum

/-- The characters of a frame, as sent: the mark bit is 1 on the kind character alone (R173, R176). -/
def Frame.characters (f : Frame) : List LineCharacter :=
  lineCharacter true f.kind
    :: (byteOf f.payload.length :: f.payload ++ [f.check]).map (lineCharacter false)

/-! ## The frames of the requests (R183) -/

/-- The code of a POLICY value: 0 for the first value named, 1 for the second. -/
def choiceByte (second : Bool) : Byte :=
  if second then 1#8 else 0#8

/-- The frame that carries a request. -/
def Request.frame : Request → Frame
  | .demand d =>
    ⟨Kind.demand, [d.sequence] ++ signedBytes d.total ++ signedBytes d.speed ++ [byteOf d.load, d.spare]⟩
  | .claim c => ⟨Kind.claim, [c.axle, c.kind] ++ signedBytes c.value ++ [byteOf c.lifetime, c.tag, c.spare]⟩
  | .release axle kind => ⟨Kind.release, [axle, kind]⟩
  | .releaseAll => ⟨Kind.releaseAll, []⟩
  | .hold h => ⟨Kind.hold, [h.indication] ++ unsignedBytes h.share ++ [h.tag]⟩
  | .resume => ⟨Kind.resume, []⟩
  | .envelope e =>
    ⟨Kind.configure, [1#8] ++ signedBytes e.frontUpper ++ signedBytes e.frontLower ++ signedBytes e.rearUpper
      ++ signedBytes e.rearLower ++ signedBytes e.totalUpper ++ signedBytes e.totalLower⟩
  | .policy q =>
    ⟨Kind.configure, [2#8, choiceByte (q.upperAction = .refuse), choiceByte (q.lowerAction = .refuse),
      choiceByte (q.ceilingExcess = .shed), choiceByte (q.floorExcess = .shed),
      choiceByte (q.demandReplacement = .tighten), choiceByte (q.stabilityReplacement = .tighten)]⟩
  | .motion m =>
    ⟨Kind.configure, [3#8] ++ unsignedBytes m.shareSlew ++ unsignedBytes m.frontSlew ++ unsignedBytes m.rearSlew
      ++ unsignedBytes m.lapseSlew⟩
  | .timing t =>
    ⟨Kind.configure, [4#8, byteOf t.lapseTime, byteOf t.lapseStep, byteOf t.windowCount, byteOf t.missLimit,
      byteOf t.rejoinCount, byteOf t.orphanLifetime]⟩
  | .loadBands bands => ⟨Kind.configure, [5#8, byteOf bands.length] ++ bands.map byteOf⟩
  | .speedBands bands => ⟨Kind.configure, [6#8, byteOf bands.length] ++ bands.map byteOf⟩
  | .alert masks mirror => ⟨Kind.configure, [7#8] ++ halfBytes masks ++ [mirror]⟩
  | .mapWrite w => ⟨Kind.mapWrite, [byteOf w.row, byteOf w.column, byteOf w.count] ++ w.values.flatMap unsignedBytes⟩
  | .mapFill v => ⟨Kind.mapFill, unsignedBytes v⟩
  | .mapRead row => ⟨Kind.mapRead, [byteOf row]⟩
  | .status => ⟨Kind.status, []⟩
  | .listClaims start => ⟨Kind.listClaims, [byteOf start]⟩
  | .listHolds => ⟨Kind.listHolds, []⟩
  | .restart => ⟨Kind.restart, []⟩

/-- The row of the command table that takes a request on port `p`. -/
def Request.command (p : MasterId) : Request → Instr
  | .demand _ => .demand p
  | .claim _ => .claim p
  | .release _ _ => .release p
  | .releaseAll => .releaseAll p
  | .hold _ => .hold p
  | .resume => .resume p
  | .envelope _ => .configureEnvelope p
  | .policy _ => .configurePolicy p
  | .motion _ => .configureMotion p
  | .timing _ => .configureTiming p
  | .loadBands _ => .configureLoadBands p
  | .speedBands _ => .configureSpeedBands p
  | .alert _ _ => .configureAlert p
  | .mapWrite _ => .mapWrite p
  | .mapFill _ => .mapFill p
  | .mapRead _ => .mapRead p
  | .status => .status p
  | .listClaims _ => .listClaims p
  | .listHolds => .listHolds p
  | .restart => .restart p

/-! ## The host's decoder of table words -/

/-- No row of spec/opcode_table.json gives bits, so no word spells a command (log 1). -/
def decodeTableWord (_nbits _w : Nat) : Option Instr :=
  none

end Sys2Proof
end

