-- ==== Sys2Proof/Machine/Operands.lean ====
section
/-! DEFINITION. The codes and payload layouts of R183 (spec/09_serial_links.md): how a coded field of a request is read,
and how replies, mirror records, COMMAND frames and listings are laid out in bytes. -/

namespace Sys2Proof.Machine

/-! ## Codes that are read -/

/-- The axle a code names (R183); any other code names none. -/
def ClaimAxle.ofCode (b : Byte) : Option ClaimAxle :=
  if b = 0#8 then some .front else if b = 1#8 then some .rear else if b = 2#8 then some .total else none

/-- The claim kind a code names (R183); any other code names none. -/
def ClaimKind.ofCode (b : Byte) : Option ClaimKind :=
  if b = 0#8 then some .ceiling else if b = 1#8 then some .floor else if b = 2#8 then some .slew else none

/-! ## Codes that are sent -/

def ResultCode.code : ResultCode → Byte
  | .accepted => 0x00#8
  | .clamped => 0x01#8
  | .notPermitted => 0x10#8
  | .notConfigured => 0x11#8
  | .wrongState => 0x12#8
  | .badField => 0x13#8
  | .outsideEnvelope => 0x14#8
  | .looser => 0x15#8
  | .tableFull => 0x16#8
  | .noSuchClaim => 0x17#8
  | .stackFull => 0x18#8
  | .stackEmpty => 0x19#8
  | .notHolder => 0x1A#8
  | .claimsPresent => 0x1B#8
  | .unknownRequest => 0x1C#8

def AllocState.code : AllocState → Nat
  | .unconfigured => 0
  | .ready => 1
  | .running => 2
  | .lapsed => 3

def AxleState.code : AxleState → Nat
  | .offline => 0
  | .rejoining => 1
  | .online => 2
  | .suspect => 3

def LinkState.code : LinkState → Nat
  | .down => 0
  | .up => 1
  | .broken => 2

def Mode.code : Mode → Nat
  | .standby => 0
  | .drive => 1

def LimitCode.code : LimitCode → Nat
  | .free => 0
  | .slew => 1
  | .ceiling => 2
  | .floor => 3
  | .inverted => 4
  | .standby => 5

def ClaimAxle.code : ClaimAxle → Nat
  | .front => 0
  | .rear => 1
  | .total => 2

def ClaimKind.code : ClaimKind → Nat
  | .ceiling => 0
  | .floor => 1
  | .slew => 2

def Source.code : Source → Nat
  | .demand => 0
  | .stability => 1
  | .finv => 2
  | .rinv => 3

def ForcedMarker.code : ForcedMarker → Nat
  | .none => 0
  | .front => 1
  | .rear => 2

/-- The last fault kind; 0 is NONE. -/
def faultCode : Option LinkFault → Nat
  | none => 0
  | some .framing => 1
  | some .parity => 2
  | some .check => 3
  | some .length => 4
  | some .truncated => 5
  | some .stray => 6
  | some .brk => 7

def Holder.code : Holder → Nat
  | .demandPort => 0
  | .stabilityPort => 1
  | .allocator => 2

def Origin.code : Origin → Nat
  | .master => 0
  | .lapse => 1

/-! ## Payloads that are sent -/

/-- The byte of both axle states: bits 0 to 3 front, bits 4 to 7 rear. -/
def axleStatesByte (front rear : AxleState) : Byte :=
  byteOf (front.code + 16 * rear.code)

/-- The payload of a COMMAND (8 bytes). -/
def CommandRecord.bytes (r : CommandRecord) : List Byte :=
  [r.sequence, byteOf r.mode.code] ++ signedBytes r.torque ++ signedBytes r.ceiling ++ signedBytes r.floor

/-- The COMMAND frame of a record (R101). -/
def CommandRecord.frame (r : CommandRecord) : Frame :=
  ⟨Kind.command, r.bytes⟩

/-- The payload of an allocation result, reply or mirror (23 bytes). -/
def ResultRecord.bytes (r : ResultRecord) : List Byte :=
  [r.code.code, r.sequence, r.demandSequence, byteOf r.state.code]
    ++ signedBytes r.front.command ++ signedBytes r.rear.command ++ signedBytes r.unplaced ++ unsignedBytes r.liveShare
    ++ [byteOf r.front.limit.code, byteOf r.rear.limit.code, axleStatesByte r.front.state r.rear.state]
    ++ signedBytes r.front.delivered ++ signedBytes r.rear.delivered
    ++ signedBytes r.front.speed ++ signedBytes r.rear.speed

/-- The mirror frame of a result record (R166). -/
def ResultRecord.mirrorFrame (r : ResultRecord) : Frame :=
  ⟨Kind.mirror, r.bytes⟩

/-- One claim entry of a LIST CLAIMS reply (6 bytes). -/
def ClaimEntry.bytes (index : Nat) (e : ClaimEntry) : List Byte :=
  [byteOf (index % 16 + 16 * e.clamped.toNat + 32 * e.orphaned.toNat + 64 * e.governing.toNat),
   byteOf (e.source.code + 4 * e.axle.code + 16 * e.kind.code)]
    ++ signedBytes e.value ++ [byteOf (e.lifetime.getD 0), e.tag]

/-- One hold record of a LIST HOLDS reply (4 bytes). -/
def HoldRecord.bytes (h : HoldRecord) : List Byte :=
  [byteOf (h.holder.code + 4 * h.origin.code + 8 * h.captured.toNat)] ++ unsignedBytes h.share ++ [h.tag]

end Sys2Proof.Machine
end

