-- ==== Sys2Proof/Machine/Ports.lean ====
section
/-! DEFINITION. The master ports: the receive queue with HOLDOFF and the waiting-for-room marker, the reply queue, the
mirror slot, the transmit arbiter and the request decoder (R145, R158 to R161, R166, R167, R176, R180, R182). -/

namespace Sys2Proof.Machine

/-! ## Queues and lines -/

/-- HOLDOFF follows the receive queue (R180), the waiting-for-room marker both queues (R159). -/
def MasterPort.judge (m : MasterPort) : MasterPort :=
  { m with
    holdoff := decide (Config.receiveQueueSize ≤ m.rxQueue.length)
    waitingForRoom := !m.rxQueue.isEmpty && decide (Config.replyQueueSize ≤ m.replyQueue.length) }

/-- A completed frame joins the receive queue at the tail (R180). -/
def MasterPort.enqueue (f : Frame) (m : MasterPort) : MasterPort :=
  ({ m with rxQueue := m.rxQueue ++ [f] }).judge

/-- The head frame leaves the receive queue (R159). -/
def MasterPort.dequeue (m : MasterPort) : MasterPort :=
  ({ m with rxQueue := m.rxQueue.tail }).judge

/-- The arbiter: an idle transmitter takes the oldest reply, else the mirror record, else stays idle (R167). -/
def MasterPort.arbitrate (m : MasterPort) : MasterPort :=
  match m.tx with
  | .idle =>
    match m.replyQueue with
    | r :: rest => ({ m with tx := .sending r false, replyQueue := rest }).judge
    | [] =>
      match m.mirrorSlot with
      | some rec => { m with tx := .sending rec.mirrorFrame false, mirrorSlot := none }
      | none => m
  | .sending _ _ => m
  | .breaking => m

/-- A reply is placed at the tail of the reply queue; an idle transmitter takes the oldest at once (R159, R167). -/
def MasterPort.placeReply (f : Frame) (m : MasterPort) : MasterPort :=
  (({ m with replyQueue := m.replyQueue ++ [f] }).judge).arbitrate

/-- A result record handed to a port with mirror enabled: placed on an UP link, where it supersedes an unsent record, and
discarded on a link that is not UP (R94, R166). The arbiter is run by the step, after any reply of the same allocation
has been placed (R167). -/
def MasterPort.mirrorHandoff (r : ResultRecord) (m : MasterPort) : MasterPort :=
  if m.alert.mirrorEnable && m.link = .up then { m with mirrorSlot := some r } else m

/-- A RESTART makes the transmitter send a break: at once, or after the frame in transmission; a break being sent is
started anew (R145, R182). A second RESTART during one frame leaves one break owed: whether one or two follow is not said
(DESIGN CHOICE, log 20). -/
def MasterPort.sendBreak (m : MasterPort) : MasterPort :=
  match m.tx with
  | .idle => { m with tx := .breaking }
  | .sending f _ => { m with tx := .sending f true }
  | .breaking => m

/-- A frame has been sent to its end: the break owed by a RESTART follows it, or the transmitter becomes idle and the
arbiter chooses (R145, R167). -/
def MasterPort.frameSent (m : MasterPort) : MasterPort :=
  match m.tx with
  | .sending _ true => { m with tx := .breaking }
  | .sending _ false => ({ m with tx := .idle }).arbitrate
  | .idle => m
  | .breaking => m

/-- A break has ended: the transmitter becomes idle and the arbiter chooses (R167, R182). -/
def MasterPort.breakEnded (m : MasterPort) : MasterPort :=
  match m.tx with
  | .breaking => ({ m with tx := .idle }).arbitrate
  | .idle => m
  | .sending _ _ => m

/-- A link break cuts off the frame in transmission (R171). A break owed by a RESTART then follows at once (DEDUCED,
log 11); a break being sent goes on. -/
def MasterPort.cutOff (m : MasterPort) : MasterPort :=
  match m.tx with
  | .sending _ true => { m with tx := .breaking }
  | .sending _ false => { m with tx := .idle }
  | .idle => m
  | .breaking => m

/-! ## The decoder -/

/-- Whether the decoder takes the head frame: one waits and the reply queue has room (R159). -/
def MasterPort.canTake (m : MasterPort) : Bool :=
  !m.rxQueue.isEmpty && decide (m.replyQueue.length < Config.replyQueueSize)

/-- The reply frame to a request frame: the result code first (R161). -/
def replyTo (f : Frame) (payload : List Byte) : Frame :=
  ⟨replyKind f.kind, payload⟩

/-- A refusal carries the result code alone (R161). -/
def refusal (c : ResultCode) : List Byte :=
  [c.code]

/-- The taking of one request, whole (R159): the head frame leaves the receive queue of port `p`, its owner acts and
answers the reply's payload, and the reply is placed. `row` is the command that takes frames of this kind; the step
takes place when the decoder can take the head frame and that frame is one of this row, and otherwise does not occur
(log 3). -/
def taking (row : Instr) (p : MasterId) (s : State) (owner : Frame → State → List Byte × State) : Result :=
  whileReleased s fun s =>
    match (s.master p).rxQueue.head? with
    | some f =>
      if (s.master p).canTake && decodeRequest p f = row then
        let answer := owner f (s.onMaster p MasterPort.dequeue)
        answer.2.onMaster p (MasterPort.placeReply (replyTo f answer.1))
      else s
    | none => s

/-- A request kind that the decoder permits on the demand link alone (R158, R160). -/
def onDemandLink (p : MasterId) (owner : Frame → State → List Byte × State) (f : Frame) (s : State) : List Byte × State :=
  match p with
  | .demand => owner f s
  | .stability => (refusal .notPermitted, s)

/-- An owner that refuses leaves the state it addresses as it was (R162). -/
def refuse (c : ResultCode) (s : State) : List Byte × State :=
  (refusal c, s)

/-- UNKNOWN_REQUEST (R160): answered without reaching any owner. -/
def execUnknownRequest (p : MasterId) (s : State) : Result :=
  taking (.unknownRequest p) p s fun _ s => refuse .unknownRequest s

/-! ## The transmitter's events -/

/-- MASTER_FRAME_SENT (R167, R145): a reply or mirror frame completes. -/
def execMasterFrameSent (p : MasterId) (s : State) : Result :=
  whileReleased s fun s => s.onMaster p MasterPort.frameSent

end Sys2Proof.Machine
end

