-- ==== Sys2Proof/Machine/ClaimTable.lean ====
section
/-! DEFINITION. The claim table (spec/01_the_claim_table.md): CLAIM, RELEASE, RELEASE ALL, LIST CLAIMS, the derate
intakes, orphaning, removal on axle loss, and the act that serves an allocation. -/

namespace Sys2Proof.Machine

/-! ## Keys and counts -/

/-- Whether an entry stands under a claim key (R2). -/
def ClaimEntry.hasKey (e : ClaimEntry) (src : Source) (axle : ClaimAxle) (kind : ClaimKind) : Bool :=
  e.source = src && e.axle = axle && e.kind = kind

/-- The entry under a claim key, if one stands. -/
def findClaim (t : List ClaimEntry) (src : Source) (axle : ClaimAxle) (kind : ClaimKind) : Option ClaimEntry :=
  t.find? fun e => e.hasKey src axle kind

/-- The table without the entry of a key; the entries behind it move forward (R3). -/
def removeClaim (t : List ClaimEntry) (src : Source) (axle : ClaimAxle) (kind : ClaimKind) : List ClaimEntry :=
  t.filter fun e => !e.hasKey src axle kind

/-- A new entry is stored: one under its key is removed first, and it goes at the end (R3, R13). -/
def storeClaim (t : List ClaimEntry) (e : ClaimEntry) : List ClaimEntry :=
  removeClaim t e.source e.axle e.kind ++ [e]

/-- Whether a source is one of the masters. -/
def Source.isMaster (src : Source) : Bool :=
  src.master?.isSome

/-- The number of entries of master sources (R12). -/
def masterCount (t : List ClaimEntry) : Nat :=
  t.countP fun e => e.source.isMaster

/-- SLEW on TOTAL is not a key (R2). -/
def keyExists (axle : ClaimAxle) (kind : ClaimKind) : Bool :=
  !(kind = .slew && axle = .total)

/-- The axle and kind that two codes name, where they make a key (R8, R15). -/
def readKey (axle kind : Byte) : Option (ClaimAxle × ClaimKind) :=
  match ClaimAxle.ofCode axle, ClaimKind.ofCode kind with
  | some a, some k => if keyExists a k then some (a, k) else none
  | _, _ => none

/-! ## The envelope test (R9) -/

/-- The upper envelope edge of an axle or of the total (R9, R152). -/
def upperEdge (e : Envelope) : ClaimAxle → Int
  | .front => e.frontUpper
  | .rear => e.rearUpper
  | .total => e.totalUpper

/-- The lower envelope edge of an axle or of the total (R9, R152). -/
def lowerEdge (e : Envelope) : ClaimAxle → Int
  | .front => e.frontLower
  | .rear => e.rearLower
  | .total => e.totalLower

/-- What the edge action does with a value beyond an edge: the edge, marked clamped, or nothing where it refuses. -/
def edgeResult (action : EdgeAction) (edge : Int) : Option (Int × Bool) :=
  match action with
  | .clamp => some (edge, true)
  | .refuse => none

/-- The envelope test of a CEILING or FLOOR value (R9): the value to store and its clamped mark, or none where it is
refused. -/
def envelopeTest (e : Envelope) (q : Policy) (axle : ClaimAxle) (v : Int) : Option (Int × Bool) :=
  if upperEdge e axle < v then edgeResult q.upperAction (upperEdge e axle)
  else if v < lowerEdge e axle then edgeResult q.lowerAction (lowerEdge e axle)
  else some (v, false)

/-! ## CLAIM (R6 to R13) -/

/-- The raw range of a claim value (R8). -/
def valueInRange (axle : ClaimAxle) (kind : ClaimKind) (v : Int) : Bool :=
  match kind, axle with
  | .slew, _ => decide (1 ≤ v ∧ v ≤ Config.maxAxleTorque)
  | _, .total => decide (-Config.maxTotalTorque ≤ v ∧ v ≤ Config.maxTotalTorque)
  | _, _ => decide (-Config.maxAxleTorque ≤ v ∧ v ≤ Config.maxAxleTorque)

/-- At least as restrictive (R11): lower or equal for CEILING and SLEW, higher or equal for FLOOR. -/
def atLeastAsTight (kind : ClaimKind) (new old : Int) : Bool :=
  match kind with
  | .ceiling => decide (new ≤ old)
  | .slew => decide (new ≤ old)
  | .floor => decide (old ≤ new)

/-- The replacement policy of a master source (R11). -/
def replacementOf (q : Policy) : MasterId → Replacement
  | .demand => q.demandReplacement
  | .stability => q.stabilityReplacement

/-- The third check: kinds CEILING and FLOOR are put to the envelope test, SLEW is not (R9). -/
def claimTest (e : Envelope) (q : Policy) (axle : ClaimAxle) (kind : ClaimKind) (v : Int) : Option (Int × Bool) :=
  match kind with
  | .slew => some (v, false)
  | .ceiling => envelopeTest e q axle v
  | .floor => envelopeTest e q axle v

/-- The entry that an accepted CLAIM stores (R13). A requested lifetime of 0 is an absent one. -/
def claimEntry (p : MasterId) (axle : ClaimAxle) (kind : ClaimKind) (v : Int) (clamped : Bool) (c : ClaimFields) :
    ClaimEntry where
  source := p.source
  axle := axle
  kind := kind
  value := v
  lifetime := if c.lifetime = 0 then none else some c.lifetime
  tag := c.tag
  clamped := clamped
  orphaned := false
  governing := false

/-- The fourth and fifth checks (R11, R12) of an entry that passed the others. -/
def judgeStorage (p : MasterId) (s : State) (e : ClaimEntry) : Except ResultCode ClaimEntry :=
  match findClaim s.table e.source e.axle e.kind with
  | some old =>
    if replacementOf s.config.policy p = .tighten && !atLeastAsTight e.kind e.value old.value then .error .looser
    else .ok e
  | none => if Config.masterClaims ≤ masterCount s.table then .error .tableFull else .ok e

/-- The five checks of a CLAIM, in order (R6 to R12): the refusal, or the entry to store. -/
def judgeClaim (p : MasterId) (c : ClaimFields) (s : State) : Except ResultCode ClaimEntry :=
  if s.alloc.state = .unconfigured then .error .notConfigured
  else
    match readKey c.axle c.kind with
    | none => .error .badField
    | some (axle, kind) =>
      if !(valueInRange axle kind c.value && decide (c.lifetime ≤ Config.maxLifetime)) then .error .badField
      else
        match claimTest s.config.envelope s.config.policy axle kind c.value with
        | none => .error .outsideEnvelope
        | some (v, clamped) => judgeStorage p s (claimEntry p axle kind v clamped c)

/-- The claim table's part of a CLAIM: the reply and the new state (R13). -/
def claimOwner (p : MasterId) (f : Frame) (s : State) : List Byte × State :=
  match judgeClaim p (readClaim f) s with
  | .error c => refuse c s
  | .ok e =>
    ((if e.clamped then ResultCode.clamped else .accepted).code :: signedBytes e.value,
      { s with table := storeClaim s.table e })

/-- CLAIM (R6). -/
def execClaim (p : MasterId) (s : State) : Result :=
  taking (.claim p) p s (claimOwner p)

/-! ## RELEASE and RELEASE ALL (R15, R16) -/

/-- The claim table's part of a RELEASE (R15). -/
def releaseOwner (p : MasterId) (f : Frame) (s : State) : List Byte × State :=
  match readKey (f.byteAt 0) (f.byteAt 1) with
  | none => refuse .badField s
  | some (axle, kind) =>
    if (findClaim s.table p.source axle kind).isSome then
      ([ResultCode.accepted.code], { s with table := removeClaim s.table p.source axle kind })
    else refuse .noSuchClaim s

/-- RELEASE (R15). -/
def execRelease (p : MasterId) (s : State) : Result :=
  taking (.release p) p s (releaseOwner p)

/-- The entries of a source. -/
def claimsOf (t : List ClaimEntry) (src : Source) : List ClaimEntry :=
  t.filter fun e => e.source = src

/-- The table without a source's entries, in the same order (R16, R25). -/
def withoutSource (t : List ClaimEntry) (src : Source) : List ClaimEntry :=
  t.filter fun e => !(e.source = src)

/-- The claim table's part of a RELEASE ALL (R16). -/
def releaseAllOwner (p : MasterId) (_ : Frame) (s : State) : List Byte × State :=
  ([ResultCode.accepted.code, byteOf (claimsOf s.table p.source).length],
    { s with table := withoutSource s.table p.source })

/-- RELEASE ALL (R16). -/
def execReleaseAll (p : MasterId) (s : State) : Result :=
  taking (.releaseAll p) p s (releaseAllOwner p)

/-! ## LIST CLAIMS (R31, R165) -/

/-- The bytes of the entries of a listing, from table index `i`. -/
def listedBytes : Nat → List ClaimEntry → List Byte
  | _, [] => []
  | i, e :: rest => e.bytes i ++ listedBytes (i + 1) rest

/-- The claim table's part of a LIST CLAIMS (R165). -/
def listClaimsOwner (f : Frame) (s : State) : List Byte × State :=
  ([ResultCode.accepted.code, byteOf s.table.length, f.byteAt 0]
      ++ listedBytes (f.natAt 0) ((s.table.drop (f.natAt 0)).take Config.listedClaims), s)

/-- LIST CLAIMS (R165). -/
def execListClaims (p : MasterId) (s : State) : Result :=
  taking (.listClaims p) p s listClaimsOwner

/-! ## Derate intakes (R17 to R19) -/

/-- One indication of a derate hand-off (R17). -/
inductive Derate where
  | present (value : Int)
  | clear
  | nothing
  deriving DecidableEq, Repr

/-- The entry that a derate intake stores (R18). -/
def derateEntry (a : AxleId) (kind : ClaimKind) (v : Int) (clamped : Bool) : ClaimEntry where
  source := a.source
  axle := a.claimAxle
  kind := kind
  value := v
  lifetime := none
  tag := 0#8
  clamped := clamped
  orphaned := false
  governing := false

/-- A derate value is stored: an entry with the same stored value and clamped mark stays as it stands (R18). -/
def storeDerate (t : List ClaimEntry) (e : ClaimEntry) : List ClaimEntry :=
  match findClaim t e.source e.axle e.kind with
  | some old => if old.value = e.value && old.clamped = e.clamped then t else storeClaim t e
  | none => storeClaim t e

/-- The intake of one kind's indication (R18, R19). -/
def derateIntake (a : AxleId) (kind : ClaimKind) (d : Derate) (s : State) : State :=
  match d with
  | .nothing => s
  | .clear => { s with table := removeClaim s.table a.source a.claimAxle kind }
  | .present v =>
    match envelopeTest s.config.envelope s.config.policy a.claimAxle v with
    | none => raiseBoth .inverterClaimAdjusted s
    | some (w, clamped) =>
      raiseBothIf clamped .inverterClaimAdjusted
        { s with table := storeDerate s.table (derateEntry a kind w clamped) }

/-- On an axle's entry into OFFLINE its inverter's entries are removed, with no flag (R25). -/
def removeInverterClaims (a : AxleId) (s : State) : State :=
  { s with table := withoutSource s.table a.source }

/-! ## Orphaning (R22) -/

/-- An entry orphaned by its master's link break (R22). -/
def ClaimEntry.orphan (limit : Nat) (e : ClaimEntry) : ClaimEntry :=
  { e with lifetime := some (min (e.lifetime.getD limit) limit), orphaned := true }

/-- Every entry of the broken link's source is orphaned, and the other master port's set gets CLAIM_ORPHANED if there
was one (R22). -/
def orphanClaims (p : MasterId) (s : State) : State :=
  raiseIf (!(claimsOf s.table p.source).isEmpty) p.other .claimOrphaned
    { s with table := s.table.map fun e =>
        if e.source = p.source then e.orphan s.config.timing.orphanLifetime else e }

/-! ## Effective bands, governing sources and slews (R26 to R30) -/

/-- A value that beats another for the edge of a kind: smaller for CEILING and SLEW, larger for FLOOR (R26, R29). -/
def beats (kind : ClaimKind) (v w : Int) : Bool :=
  match kind with
  | .ceiling => decide (v < w)
  | .slew => decide (v < w)
  | .floor => decide (w < v)

/-- The edge (or slew) of an axle: the base value, or the most restrictive value of the axle's entries of that kind
(R26, R29). -/
def effective (t : List ClaimEntry) (axle : ClaimAxle) (kind : ClaimKind) (base : Int) : Int :=
  t.foldl (fun acc e => if e.axle = axle && e.kind = kind && beats kind e.value acc then e.value else acc) base

/-- The place in the table of the entry that governs an edge or slew: none where the base value governs (it wins every
tie), else the entry nearest the front of those with the winning value (R27, R29). -/
def governor (t : List ClaimEntry) (axle : ClaimAxle) (kind : ClaimKind) (base : Int) : Option Nat :=
  if effective t axle kind base = base then none
  else t.findIdx? fun e => e.axle = axle && e.kind = kind && e.value = effective t axle kind base

/-- The base value of an edge or slew: the envelope edge, or the MOTION slew (R26, R29). TOTAL has no slew. -/
def baseValue (c : ConfigStore) (axle : ClaimAxle) (kind : ClaimKind) : Int :=
  match kind, axle with
  | .ceiling, a => upperEdge c.envelope a
  | .floor, a => lowerEdge c.envelope a
  | .slew, .front => c.motion.frontSlew
  | .slew, .rear => c.motion.rearSlew
  | .slew, .total => 0

/-- A band is inverted when its floor lies above its ceiling (R28). -/
def Band.inverted (b : Band) : Bool :=
  decide (b.ceiling < b.floor)

/-- The value of the interval from ceiling to floor nearest zero, to which an inverted band is pinned (R28). -/
def Band.pin (b : Band) : Int :=
  if 0 ≤ b.ceiling then b.ceiling else if b.floor ≤ 0 then b.floor else 0

/-- The band as an allocation and a STATUS use it: pinned when inverted (R28, R30). -/
def Band.used (b : Band) : Band :=
  if b.inverted then ⟨b.pin, b.pin⟩ else b

/-- A value brought into a band, or to the pinned value of an inverted one (R75, R79, R80, R83). -/
def Band.clamp (b : Band) (v : Int) : Int :=
  if b.used.ceiling < v then b.used.ceiling else if v < b.used.floor then b.used.floor else v

/-- The band record (R30). The inverted marks and pinned values are those of each band. -/
structure BandRecord where
  front : Band
  rear : Band
  total : Band
  frontSlew : Int
  rearSlew : Int
  deriving DecidableEq, Repr

/-- The effective band of an axle or of the total (R26). -/
def bandOf (t : List ClaimEntry) (c : ConfigStore) (axle : ClaimAxle) : Band where
  ceiling := effective t axle .ceiling (baseValue c axle .ceiling)
  floor := effective t axle .floor (baseValue c axle .floor)

/-- The bands and slews of the act that serves an allocation (R26, R29, R30). -/
def bandRecord (t : List ClaimEntry) (c : ConfigStore) : BandRecord where
  front := bandOf t c .front
  rear := bandOf t c .rear
  total := bandOf t c .total
  frontSlew := effective t .front .slew (baseValue c .front .slew)
  rearSlew := effective t .rear .slew (baseValue c .rear .slew)

/-- The governing marks of the act: set on the entries that govern, cleared on all others (R27). -/
def markGoverning (t : List ClaimEntry) (c : ConfigStore) : List ClaimEntry :=
  t.mapIdx fun i e => { e with governing := governor t e.axle e.kind (baseValue c e.axle e.kind) = some i }

/-- An entry aged by one allocation: none where its lifetime reaches zero (R20). -/
def ClaimEntry.age (e : ClaimEntry) : Option ClaimEntry :=
  match e.lifetime with
  | none => some e
  | some n => if n ≤ 1 then none else some { e with lifetime := some (n - 1) }

/-- Every lifetime is reduced by one and the entries that reach zero are removed (R20). -/
def ageClaims (t : List ClaimEntry) : List ClaimEntry :=
  t.filterMap ClaimEntry.age

/-- Whether aging removes an entry of a source (R21). -/
def lapses (t : List ClaimEntry) (src : Source) : Bool :=
  t.any fun e => e.source = src && e.age.isNone

/-- The act that serves an allocation (R14): bands and slews from the standing entries, then the governing marks, then
aging with CLAIM_LAPSED (R21), and the last band record (R30). -/
def claimTableAct (s : State) : State :=
  raiseIf (lapses s.table .stability) .stability .claimLapsed
    (raiseIf (lapses s.table .demand) .demand .claimLapsed
      { s with
        table := ageClaims (markGoverning s.table s.config)
        lastBands := some ⟨bandOf s.table s.config .front, bandOf s.table s.config .rear⟩ })

end Sys2Proof.Machine
end

