-- ==== Sys2Proof/Machine/Alerts.lean ====
section
/-! DEFINITION. STATUS (R163, R164): the report of the part's state and of the requesting port's flags, which it clears. -/

namespace Sys2Proof.Machine

/-- The FRONT and REAR bands that a STATUS reports: the last band record, pinned where inverted, or the envelope edges
while no allocation has been performed since power-on or RESTART (R30). -/
def statusBands (s : State) : LastBands :=
  match s.lastBands with
  | some b => ⟨b.front.used, b.rear.used⟩
  | none => ⟨⟨s.config.envelope.frontUpper, s.config.envelope.frontLower⟩,
             ⟨s.config.envelope.rearUpper, s.config.envelope.rearLower⟩⟩

/-- The byte of all four link states (R183). -/
def linkStatesByte (s : State) : Byte :=
  byteOf (s.demandPort.link.code + 4 * s.stabilityPort.link.code + 16 * s.front.link.code + 64 * s.rear.link.code)

/-- The payload of a STATUS reply to port `p` (R163, R183; 20 bytes). -/
def statusBytes (p : MasterId) (s : State) : List Byte :=
  [ResultCode.accepted.code,
   byteOf (s.alloc.state.code + 4 * s.alloc.settled.toNat + 8 * s.forced.code
     + 32 * faultCode (s.master p).alert.lastFault),
   axleStatesByte s.front.state s.rear.state,
   linkStatesByte s,
   byteOf s.table.length,
   byteOf (masterCount s.table + 16 * s.holds.length)]
    ++ unsignedBytes s.liveShare ++ unsignedBytes s.lastGoverning ++ halfBytes (s.master p).alert.flags
    ++ signedBytes (statusBands s).front.ceiling ++ signedBytes (statusBands s).front.floor
    ++ signedBytes (statusBands s).rear.ceiling ++ signedBytes (statusBands s).rear.floor

/-- The alert unit's part of a STATUS: the reply, then the flag set and last fault kind cleared (R163). -/
def statusOwner (p : MasterId) (_ : Frame) (s : State) : List Byte × State :=
  (statusBytes p s, s.onAlert p AlertUnit.clear)

/-- STATUS (R163). -/
def execStatus (p : MasterId) (s : State) : Result :=
  taking (.status p) p s (statusOwner p)

end Sys2Proof.Machine
end

