-- ==== Sys2Proof/Machine/Configuration.lean ====
section
/-! DEFINITION. The CONFIGURE request (spec/07_configuration.md): the five checks of R150 and the seven sections. -/

namespace Sys2Proof.Machine

/-! ## The checks (R150, R151) -/

/-- The states in which ENVELOPE, POLICY, TIMING and the band sections are accepted (R151). -/
def AllocState.stationary : AllocState → Bool
  | .unconfigured => true
  | .ready => true
  | .running => false
  | .lapsed => false

/-- The checks of a CONFIGURE whose identifier is known, in order (R150): the payload length, the link for a section
other than ALERT, the allocator state, the empty table for ENVELOPE, the fields. None when all pass. -/
def configureRefusal (lengthOk linkOk stateOk tableOk fieldsOk : Bool) : Option ResultCode :=
  if !lengthOk then some .badField
  else if !linkOk then some .notPermitted
  else if !stateOk then some .wrongState
  else if !tableOk then some .claimsPresent
  else if !fieldsOk then some .badField
  else none

/-- The reply and state of a CONFIGURE (R150): a refusal, or the section identifier with the new section stored. -/
def configureAnswer (r : Option ResultCode) (section_ : Nat) (store : State → State) (s : State) : List Byte × State :=
  match r with
  | some c => refuse c s
  | none => ([ResultCode.accepted.code, byteOf section_], store s)

/-- Whether the link may write a section other than ALERT (R150). -/
def mayConfigure : MasterId → Bool
  | .demand => true
  | .stability => false

/-! ## The ranges of the sections -/

/-- An upper edge of at least 1 and a lower edge of at most -1, within `limit` (R152). -/
def edgesValid (upper lower limit : Int) : Bool :=
  decide (1 ≤ upper ∧ upper ≤ limit) && decide (-limit ≤ lower ∧ lower ≤ -1)

/-- The ranges of ENVELOPE (R152). -/
def envelopeValid (e : Envelope) : Bool :=
  edgesValid e.frontUpper e.frontLower Config.maxAxleTorque && edgesValid e.rearUpper e.rearLower Config.maxAxleTorque
    && edgesValid e.totalUpper e.totalLower Config.maxTotalTorque

/-- A rate of MOTION from 1 to a limit (R154). -/
def rateValid (v limit : Nat) : Bool :=
  decide (1 ≤ v ∧ v ≤ limit)

/-- The ranges of MOTION (R154). -/
def motionValid (m : Motion) : Bool :=
  rateValid m.shareSlew 1000 && rateValid m.frontSlew 16000 && rateValid m.rearSlew 16000 && rateValid m.lapseSlew 16000

/-- The ranges of TIMING (R155). -/
def timingValid (t : Timing) : Bool :=
  decide (2 ≤ t.lapseTime ∧ t.lapseTime ≤ 250) && decide (1 ≤ t.lapseStep ∧ t.lapseStep ≤ 50)
    && decide (10 ≤ t.windowCount ∧ t.windowCount ≤ 200) && decide (1 ≤ t.missLimit ∧ t.missLimit ≤ 8)
    && decide (1 ≤ t.rejoinCount ∧ t.rejoinCount ≤ 16) && decide (1 ≤ t.orphanLifetime ∧ t.orphanLifetime ≤ 250)

/-- A list strictly ascending (R156). -/
def ascending : List Nat → Bool
  | a :: b :: rest => decide (a < b) && ascending (b :: rest)
  | [_] => true
  | [] => true

/-- The conditions of a band section (R156): 1 to 7 breakpoints, each from 1 to `limit`, strictly ascending. -/
def bandsValid (limit : Nat) (bands : List Nat) : Bool :=
  decide (1 ≤ bands.length ∧ bands.length ≤ 7) && (bands.all fun b => decide (1 ≤ b ∧ b ≤ limit)) && ascending bands

/-- The payload length of a band section matches the breakpoint count carried (R150). -/
def bandsLengthOk (f : Frame) : Bool :=
  decide (f.payload.length = 2 + f.natAt 1)

/-- Masks at the fourteen positions only, and a mirror enable that names on or off (R157). -/
def alertValid (masks : Half) (mirror : Byte) : Bool :=
  !masks.getLsbD 14 && !masks.getLsbD 15 && decide (mirror = 0#8 ∨ mirror = 1#8)

/-! ## The sections -/

/-- An accepted ENVELOPE is stored; in UNCONFIGURED it moves the allocator to READY (R131, R152). -/
def storeEnvelope (e : Envelope) (s : State) : State :=
  { s with
    config := { s.config with envelope := e }
    alloc := { s.alloc with state := if s.alloc.state = .unconfigured then .ready else s.alloc.state } }

/-- The store's part of CONFIGURE ENVELOPE (R150 to R152). -/
def envelopeOwner (p : MasterId) (f : Frame) (s : State) : List Byte × State :=
  configureAnswer
    (configureRefusal (f.payload.length = 13) (mayConfigure p) s.alloc.state.stationary s.table.isEmpty
      (envelopeValid (readEnvelope f)))
    1 (storeEnvelope (readEnvelope f)) s

/-- CONFIGURE_ENVELOPE (R152). -/
def execConfigureEnvelope (p : MasterId) (s : State) : Result :=
  taking (.configureEnvelope p) p s (envelopeOwner p)

/-- An accepted POLICY is stored whole (R150). A refused one carries no policy and stores nothing. -/
def storePolicy (q : Option Policy) (s : State) : State :=
  { s with config := { s.config with policy := q.getD s.config.policy } }

/-- The store's part of CONFIGURE POLICY (R150, R151, R153). -/
def policyOwner (p : MasterId) (f : Frame) (s : State) : List Byte × State :=
  configureAnswer
    (configureRefusal (f.payload.length = 7) (mayConfigure p) s.alloc.state.stationary true (readPolicy f).isSome)
    2 (storePolicy (readPolicy f)) s

/-- CONFIGURE_POLICY (R153). -/
def execConfigurePolicy (p : MasterId) (s : State) : Result :=
  taking (.configurePolicy p) p s (policyOwner p)

/-- An accepted MOTION is stored (R154). -/
def storeMotion (m : Motion) (s : State) : State :=
  { s with config := { s.config with motion := m } }

/-- The store's part of CONFIGURE MOTION, accepted in every allocator state (R150, R151, R154). -/
def motionOwner (p : MasterId) (f : Frame) (s : State) : List Byte × State :=
  configureAnswer (configureRefusal (f.payload.length = 9) (mayConfigure p) true true (motionValid (readMotion f)))
    3 (storeMotion (readMotion f)) s

/-- CONFIGURE_MOTION (R154). -/
def execConfigureMotion (p : MasterId) (s : State) : Result :=
  taking (.configureMotion p) p s (motionOwner p)

/-- An accepted TIMING is stored (R155). -/
def storeTiming (t : Timing) (s : State) : State :=
  { s with config := { s.config with timing := t } }

/-- The store's part of CONFIGURE TIMING (R150, R151, R155). -/
def timingOwner (p : MasterId) (f : Frame) (s : State) : List Byte × State :=
  configureAnswer
    (configureRefusal (f.payload.length = 7) (mayConfigure p) s.alloc.state.stationary true (timingValid (readTiming f)))
    4 (storeTiming (readTiming f)) s

/-- CONFIGURE_TIMING (R155). -/
def execConfigureTiming (p : MasterId) (s : State) : Result :=
  taking (.configureTiming p) p s (timingOwner p)

/-- An accepted LOAD BANDS list is stored (R156). -/
def storeLoadBands (bands : List Nat) (s : State) : State :=
  { s with config := { s.config with loadBands := bands } }

/-- The store's part of CONFIGURE LOAD BANDS (R150, R151, R156). -/
def loadBandsOwner (p : MasterId) (f : Frame) (s : State) : List Byte × State :=
  configureAnswer
    (configureRefusal (bandsLengthOk f) (mayConfigure p) s.alloc.state.stationary true (bandsValid 99 (readBands f)))
    5 (storeLoadBands (readBands f)) s

/-- CONFIGURE_LOAD_BANDS (R156). -/
def execConfigureLoadBands (p : MasterId) (s : State) : Result :=
  taking (.configureLoadBands p) p s (loadBandsOwner p)

/-- An accepted SPEED BANDS list is stored (R156). -/
def storeSpeedBands (bands : List Nat) (s : State) : State :=
  { s with config := { s.config with speedBands := bands } }

/-- The store's part of CONFIGURE SPEED BANDS (R150, R151, R156). -/
def speedBandsOwner (p : MasterId) (f : Frame) (s : State) : List Byte × State :=
  configureAnswer
    (configureRefusal (bandsLengthOk f) (mayConfigure p) s.alloc.state.stationary true (bandsValid 250 (readBands f)))
    6 (storeSpeedBands (readBands f)) s

/-- CONFIGURE_SPEED_BANDS (R156). -/
def execConfigureSpeedBands (p : MasterId) (s : State) : Result :=
  taking (.configureSpeedBands p) p s (speedBandsOwner p)

/-- A port takes new alert settings (R157): the line is judged anew, and with the mirror off an unsent mirror record is
discarded. -/
def MasterPort.configureAlert (masks : Half) (mirror : Bool) (m : MasterPort) : MasterPort :=
  { m with alert := m.alert.configure masks mirror, mirrorSlot := if mirror then m.mirrorSlot else none }

/-- The alert unit's part of CONFIGURE ALERT, from either link and in every allocator state (R150, R151, R157). -/
def alertOwner (p : MasterId) (f : Frame) (s : State) : List Byte × State :=
  configureAnswer (configureRefusal (f.payload.length = 4) true true true (alertValid (f.halfAt 1) (f.byteAt 3)))
    7 (fun s => s.onMaster p (MasterPort.configureAlert (f.halfAt 1) (f.byteAt 3 = 1#8))) s

/-- CONFIGURE_ALERT (R157). -/
def execConfigureAlert (p : MasterId) (s : State) : Result :=
  taking (.configureAlert p) p s (alertOwner p)

/-- CONFIGURE_UNKNOWN_SECTION (R150): the first check refuses it on either link, and no field changes. -/
def execConfigureUnknownSection (p : MasterId) (s : State) : Result :=
  taking (.configureUnknownSection p) p s fun _ s => refuse .badField s

end Sys2Proof.Machine
end

