-- ==== Sys2Proof/Machine/AxleSupervision.lean ====
section
/-! DEFINITION. The axle supervisors and their ports (spec/05_axle_links_and_axle_supervision.md): the COMMAND hand-off,
the pending slot and the transmitter, misses, FEEDBACK, axle state changes, the axle link break and the axles' part of
RESTART. -/

namespace Sys2Proof.Machine

/-! ## The pending slot and the transmitter -/

/-- While the link is UP an idle transmitter takes the pending record (R101). -/
def AxleUnit.takePending (u : AxleUnit) : AxleUnit :=
  match u.tx, u.slot with
  | .idle, some r => if u.link = .up then { u with tx := .sending r false, slot := none } else u
  | _, _ => u

/-- A DRIVE record becomes a STANDBY record of torque 0 with the same sequence and band (R99, R117). -/
def CommandRecord.toStandby (r : CommandRecord) : CommandRecord :=
  match r.mode with
  | .drive => { r with mode := .standby, torque := 0 }
  | .standby => r

/-- The record as the supervisor takes it: a DRIVE record for an axle that is OFFLINE or REJOINING is changed to STANDBY
(R99). -/
def AxleUnit.screen (u : AxleUnit) (r : CommandRecord) : CommandRecord :=
  if u.state.available then r else r.toStandby

/-- Whether a hand-off supersedes an unsent record (R100). -/
def AxleUnit.supersedes (u : AxleUnit) : Bool :=
  u.link = .up && u.slot.isSome

/-- The hand-off of a COMMAND record: the last commanded torque follows it; on an UP link it takes the slot and an idle
transmitter takes it at once, on another link it is discarded (R99, R100, R101, R103). -/
def AxleUnit.handoff (r : CommandRecord) (u : AxleUnit) : AxleUnit :=
  if u.link = .up then
    ({ u with lastCommanded := (u.screen r).torque, slot := some (u.screen r) }).takePending
  else { u with lastCommanded := (u.screen r).torque }

/-- The hand-off to an axle, with COMMAND_SUPERSEDED when it supersedes a record (R92, R100). -/
def commandHandoff (a : AxleId) (r : CommandRecord) (s : State) : State :=
  raiseBothIf (s.axle a).supersedes .commandSuperseded (s.onAxle a (AxleUnit.handoff r))

/-- A RESTART makes the transmitter send a break: at once, or after the COMMAND frame in transmission, whose completion
then counts for nothing; a break being sent is started anew (R124, R182). A second RESTART during one frame leaves one
break owed: whether one or two follow is not said (DESIGN CHOICE, log 20). -/
def AxleUnit.sendBreak (u : AxleUnit) : AxleUnit :=
  match u.tx with
  | .idle => { u with tx := .breaking }
  | .sending r _ => { u with tx := .sending r true }
  | .breaking => u

/-- A break has ended: the transmitter becomes idle and takes what waits (R101, R182). -/
def AxleUnit.breakEnded (u : AxleUnit) : AxleUnit :=
  match u.tx with
  | .breaking => ({ u with tx := .idle }).takePending
  | .idle => u
  | .sending _ _ => u

/-- A link break cuts off the COMMAND frame in transmission (R120). A break owed by a RESTART then follows at once
(DEDUCED, log 11); a break being sent goes on. -/
def AxleUnit.cutOff (u : AxleUnit) : AxleUnit :=
  match u.tx with
  | .sending _ true => { u with tx := .breaking }
  | .sending _ false => { u with tx := .idle }
  | .idle => u
  | .breaking => u

/-! ## Entering OFFLINE and misses -/

/-- The axle's record on entering OFFLINE; a DRIVE record waiting in the slot is changed to STANDBY 0 (R116, R117). -/
def AxleUnit.loseAxle (u : AxleUnit) : AxleUnit :=
  { u with
    state := .offline
    missCount := 0
    goodCount := 0
    lastCommanded := 0
    slot := u.slot.map CommandRecord.toStandby }

/-- The axle is put OFFLINE. Where it was not OFFLINE already it enters OFFLINE: its inverter's entries are removed and
AXLE_DOWN is set; an axle already OFFLINE does not enter it again (R25, R116). -/
def goOffline (a : AxleId) (s : State) : State :=
  if (s.axle a).state = .offline then s
  else raiseBoth .axleDown (removeInverterClaims a (s.onAxle a AxleUnit.loseAxle))

/-- A miss (R115), for an outstanding command that the caller has cleared. -/
def miss (a : AxleId) (s : State) : State :=
  match (s.axle a).state with
  | .offline => s
  | .rejoining => goOffline a s
  | .online =>
    if s.config.timing.missLimit ≤ 1 then goOffline a s
    else s.onAxle a fun u => { u with state := .suspect, missCount := 1 }
  | .suspect =>
    if s.config.timing.missLimit ≤ (s.axle a).missCount + 1 then goOffline a s
    else s.onAxle a fun u => { u with missCount := u.missCount + 1 }

/-- The outstanding command is cleared and its window timer stopped (R97, R106, R114). -/
def AxleUnit.clearOutstanding (u : AxleUnit) : AxleUnit :=
  { u with outstanding := none, window := .stopped }

/-- One miss is counted for the outstanding command, which is cleared (R114); with none outstanding nothing is
counted. -/
def countMiss (a : AxleId) (s : State) : State :=
  if (s.axle a).outstanding.isSome then miss a (s.onAxle a AxleUnit.clearOutstanding)
  else s.onAxle a AxleUnit.clearOutstanding

/-- FEEDBACK_WINDOW_EXPIRY (R109, R114): taken while the window timer runs, otherwise it does not occur (log 3). -/
def execFeedbackWindowExpiry (a : AxleId) (s : State) : Result :=
  whileReleased s fun s =>
    match (s.axle a).window with
    | .running _ => countMiss a s
    | .stopped => s

/-! ## COMMAND_COMPLETE -/

/-- Parts 2 to 4 of a COMMAND's completion: the sequence becomes outstanding, the window is started with the feedback
window of TIMING, and the transmitter becomes idle and takes any waiting record (R102, R123). -/
def AxleUnit.completeCommand (r : CommandRecord) (windowCount : Nat) (u : AxleUnit) : AxleUnit :=
  ({ u with outstanding := some r.sequence, window := .running (10 * windowCount), tx := .idle }).takePending

/-- COMMAND_COMPLETE (R102); a frame under way when a RESTART was taken only gives way to the break (R124). -/
def execCommandComplete (a : AxleId) (s : State) : Result :=
  whileReleased s fun s =>
    match (s.axle a).tx with
    | .sending r false =>
      (countMiss a s).onAxle a (AxleUnit.completeCommand r s.config.timing.windowCount)
    | .sending _ true => s.onAxle a fun u => { u with tx := .breaking }
    | .idle => s
    | .breaking => s

/-! ## FEEDBACK -/

/-- The payload length that a FEEDBACK's indications ask for (R104). -/
def feedbackLength (b : FeedbackFields) : Nat :=
  7 + 2 * b.ceilingPresent.toNat + 2 * b.floorPresent.toNat

/-- Whether a FEEDBACK agrees with itself (R104); `carried` is its payload's length. -/
def feedbackConsistent (b : FeedbackFields) (carried : Nat) : Bool :=
  decide (carried = feedbackLength b) && !(b.ceilingPresent && b.clearCeiling) && !(b.floorPresent && b.clearFloor)

/-- The indication handed to the claim table for one kind (R118). -/
def derateOf (present clear : Bool) (value : Int) : Derate :=
  if present then .present value else if clear then .clear else .nothing

/-- The axle becomes ONLINE by rejoin: good count 0 and AXLE_UP in both sets (R111). -/
def goOnline (a : AxleId) (s : State) : State :=
  raiseBoth .axleUp (s.onAxle a fun u => { u with state := .online, goodCount := 0 })

/-- One good answer is counted (R111): the axle is REJOINING, or ONLINE at the rejoin count. -/
def countGood (a : AxleId) (good : Nat) (s : State) : State :=
  if s.config.timing.rejoinCount ≤ good then goOnline a s
  else s.onAxle a fun u => { u with state := .rejoining, goodCount := good }

/-- The change of axle state by a matched ready answer (R111). -/
def readyAnswer (a : AxleId) (s : State) : State :=
  match (s.axle a).state with
  | .offline => countGood a 1 s
  | .rejoining => countGood a ((s.axle a).goodCount + 1) s
  | .suspect => s.onAxle a fun u => { u with state := .online, missCount := 0 }
  | .online => s

/-- The derate hand-off of a matched ready answer: one intake for each kind (R118). The spec leaves open which is taken
first, because the two keys differ (R17); CEILING before FLOOR is the model's choice, which only the table order of two
new entries shows (DESIGN CHOICE, log 19). -/
def derateHandoff (a : AxleId) (b : FeedbackFields) (s : State) : State :=
  derateIntake a .floor (derateOf b.floorPresent b.clearFloor b.floor)
    (derateIntake a .ceiling (derateOf b.ceilingPresent b.clearCeiling b.ceiling) s)

/-- Parts 1 and 2 of a matched FEEDBACK: the window stopped, the outstanding command cleared, the delivered torque and
motor speed stored (R106, R110). -/
def AxleUnit.storeFeedback (b : FeedbackFields) (u : AxleUnit) : AxleUnit :=
  { u.clearOutstanding with lastDelivered := b.delivered, lastSpeed := b.speed }

/-- A matched FEEDBACK (R106): stored, then the change of axle state by the ready indication (R111, R113), then the
derates of a ready answer (R118). -/
def matchedFeedback (a : AxleId) (b : FeedbackFields) (s : State) : State :=
  if b.ready then derateHandoff a b (readyAnswer a (s.onAxle a (AxleUnit.storeFeedback b)))
  else goOffline a (s.onAxle a (AxleUnit.storeFeedback b))

/-- A FEEDBACK frame handed to the supervisor (R104 to R107): discarded as a LENGTH fault, matched or stale. -/
def feedbackTaken (a : AxleId) (f : Frame) (s : State) : State :=
  if !feedbackConsistent (readFeedback f) f.payload.length then raiseBoth .axleLinkFault s
  else if (s.axle a).outstanding = some (readFeedback f).sequence then matchedFeedback a (readFeedback f) s
  else raiseBoth .staleFeedback s

/-- A well-formed frame on an axle link: FEEDBACK goes to the supervisor, any other kind is discarded with
AXLE_LINK_FAULT (R105, R181). -/
def axleFrameTaken (a : AxleId) (f : Frame) (s : State) : State :=
  if f.kind = Kind.feedback then feedbackTaken a f s else raiseBoth .axleLinkFault s

/-! ## Axle link break and RESTART -/

/-- The port's part of an axle link break: the receiver drops its partial frame, the frame in transmission is cut off,
the slot emptied, the outstanding command dropped without a miss (R120, R175). The receiver is held in IDLE while the
link is not UP (DESIGN CHOICE, log 18). -/
def AxleUnit.linkBroken (u : AxleUnit) : AxleUnit :=
  ({ u with link := .broken, receiver := .idle, slot := none }).clearOutstanding.cutOff

/-- AXLE_LINK_BREAK (R120): taken while the link is UP (R174, R175). -/
def execAxleLinkBreak (a : AxleId) (s : State) : Result :=
  whileReleased s fun s =>
    if (s.axle a).link = .up then raiseBoth .axleLinkFault (goOffline a (s.onAxle a AxleUnit.linkBroken)) else s

/-- The axle supervisor's and port's part of a RESTART (R124). -/
def AxleUnit.restart (u : AxleUnit) : AxleUnit :=
  ({ u with
    slot := none
    state := .offline
    missCount := 0
    goodCount := 0
    outstanding := none
    lastCommanded := 0
    lastDelivered := 0
    lastSpeed := 0
    window := .stopped }).sendBreak

end Sys2Proof.Machine
end

