-- ==== Sys2Proof/Machine/SplitMap.lean ====
section
/-! DEFINITION. The split map (R32 to R39): its geometry, MAP WRITE, MAP FILL and MAP READ. -/

namespace Sys2Proof.Machine

/-- The number of rows, and of columns (R32). -/
abbrev mapSide : Nat := 8

/-- The place of cell (row, column) in the map (R32). -/
def cellIndex (row column : Nat) : Nat :=
  mapSide * row + column

/-- The share of a cell. No row or column above 7 is reached (R34, R35, R38); such a cell would read 0 (log 14). -/
def readCell (m : Vector Nat 64) (row column : Nat) : Nat :=
  m[cellIndex row column]?.getD 0

/-- The number of breakpoints that are less than or equal to a value (R34, R35). -/
def bandIndex (breakpoints : List Nat) (v : Nat) : Nat :=
  breakpoints.countP fun b => decide (b ≤ v)

/-- The whole-km/h magnitude of a speed in 0.1 km/h (R35). -/
def wholeKmh (speed : Int) : Nat :=
  speed.natAbs / 10

/-- The map cell of an allocation's load ratio and speed (R34, R35, R42). -/
def mapShare (s : State) (load : Nat) (speed : Int) : Nat :=
  readCell s.map (bandIndex s.config.loadBands load) (bandIndex s.config.speedBands (wholeKmh speed))

/-- The cells from an index onward take the values of a list, in order (R36). -/
def writeCells (m : Vector Nat 64) : Nat → List Nat → Vector Nat 64
  | _, [] => m
  | i, v :: rest => writeCells (m.setIfInBounds i v) (i + 1) rest

/-- The checks of a MAP WRITE (R36); `carried` is the payload's length. -/
def mapWriteValid (w : MapWriteFields) (carried : Nat) : Bool :=
  decide (w.row < mapSide) && decide (w.column < mapSide) && decide (1 ≤ w.count ∧ w.count ≤ mapSide)
    && decide (w.column + w.count ≤ mapSide) && decide (carried = 3 + 2 * w.count)
    && w.values.all fun v => decide (v ≤ Config.maxShare)

/-- The map's part of a MAP WRITE (R36). -/
def mapWriteOwner (f : Frame) (s : State) : List Byte × State :=
  if mapWriteValid (readMapWrite f) f.payload.length then
    ([ResultCode.accepted.code],
      { s with map := writeCells s.map (cellIndex (readMapWrite f).row (readMapWrite f).column) (readMapWrite f).values })
  else refuse .badField s

/-- MAP WRITE (R36). -/
def execMapWrite (p : MasterId) (s : State) : Result :=
  taking (.mapWrite p) p s (onDemandLink p mapWriteOwner)

/-- The map's part of a MAP FILL (R37). -/
def mapFillOwner (f : Frame) (s : State) : List Byte × State :=
  if f.unsignedAt 0 ≤ Config.maxShare then
    ([ResultCode.accepted.code], { s with map := Vector.replicate 64 (f.unsignedAt 0) })
  else refuse .badField s

/-- MAP FILL (R37). -/
def execMapFill (p : MasterId) (s : State) : Result :=
  taking (.mapFill p) p s (onDemandLink p mapFillOwner)

/-- The eight values of a row, in order of ascending column (R38). -/
def mapRow (m : Vector Nat 64) (row : Nat) : List Nat :=
  (List.range mapSide).map (readCell m row)

/-- The map's part of a MAP READ (R38). -/
def mapReadOwner (f : Frame) (s : State) : List Byte × State :=
  if f.natAt 0 < mapSide then
    ([ResultCode.accepted.code, f.byteAt 0] ++ (mapRow s.map (f.natAt 0)).flatMap unsignedBytes, s)
  else refuse .badField s

/-- MAP READ (R38). -/
def execMapRead (p : MasterId) (s : State) : Result :=
  taking (.mapRead p) p s mapReadOwner

end Sys2Proof.Machine
end

