-- ==== Sys2Proof/Machine/ShareControl.lean ====
section
/-! DEFINITION. Share control and the hold stack (R40 to R68): the governing share, the live share, HOLD, RESUME,
LIST HOLDS, the LAPSE record and the removal on a master link break. -/

namespace Sys2Proof.Machine

/-! ## The governing share and the live share -/

/-- The availability of the axles at an allocation (R76). -/
inductive Availability where
  | both
  | frontOnly
  | rearOnly
  | neither
  deriving DecidableEq, Repr

/-- The availability from the two axles. -/
def availability (front rear : Bool) : Availability :=
  match front, rear with
  | true, true => .both
  | true, false => .frontOnly
  | false, true => .rearOnly
  | false, false => .neither

/-- The governing share: the top record's, or the map's when the stack is empty (R42). -/
def governingShare (s : State) (load : Nat) (speed : Int) : Nat :=
  match s.holds.getLast? with
  | some h => h.share
  | none => mapShare s load speed

/-- The live share moves toward the governing share by at most the share slew (R43). -/
def moveShare (live governing slew : Nat) : Nat :=
  if live + slew < governing then live + slew
  else if governing + slew < live then live - slew
  else governing

/-- The act of share control that serves an allocation (R41 to R46). -/
def shareAct (av : Availability) (load : Nat) (speed : Int) (s : State) : State :=
  match av with
  | .both =>
    { s with
      liveShare := moveShare s.liveShare (governingShare s load speed) s.config.motion.shareSlew
      forced := .none
      lastGoverning := governingShare s load speed }
  | .frontOnly =>
    { s with liveShare := Config.maxShare, forced := .front, lastGoverning := governingShare s load speed }
  | .rearOnly =>
    { s with liveShare := 0, forced := .rear, lastGoverning := governingShare s load speed }
  | .neither => { s with lastGoverning := governingShare s load speed }

/-! ## HOLD and RESUME -/

/-- The number of records of origin MASTER (R54). -/
def masterHolds (hs : List HoldRecord) : Nat :=
  hs.countP fun h => h.origin = .master

/-- The share indication is a code of its list, and a given share is at most 1000 (R54). -/
def holdValid (h : HoldFields) : Bool :=
  decide (h.indication = 0#8) || (decide (h.indication = 1#8) && decide (h.share ≤ Config.maxShare))

/-- The record that an accepted HOLD pushes (R55): the given share, or the live share captured (R48). -/
def holdRecord (p : MasterId) (h : HoldFields) (live : Nat) : HoldRecord where
  holder := p.holder
  origin := .master
  share := if h.indication = 1#8 then h.share else live
  captured := !decide (h.indication = 1#8)
  tag := h.tag

/-- Share control's part of a HOLD (R54, R55). -/
def holdOwner (p : MasterId) (f : Frame) (s : State) : List Byte × State :=
  if s.alloc.state = .unconfigured then refuse .notConfigured s
  else if !holdValid (readHold f) then refuse .badField s
  else if Config.masterHolds ≤ masterHolds s.holds then refuse .stackFull s
  else
    ([ResultCode.accepted.code, byteOf (s.holds.length + 1)]
        ++ unsignedBytes (holdRecord p (readHold f) s.liveShare).share,
      { s with holds := s.holds ++ [holdRecord p (readHold f) s.liveShare] })

/-- HOLD (R54). -/
def execHold (p : MasterId) (s : State) : Result :=
  taking (.hold p) p s (holdOwner p)

/-- Share control's part of a RESUME (R57). -/
def resumeOwner (p : MasterId) (_ : Frame) (s : State) : List Byte × State :=
  match s.holds.getLast? with
  | none => refuse .stackEmpty s
  | some h =>
    if h.origin = .master && h.holder = p.holder then
      ([ResultCode.accepted.code, byteOf (s.holds.length - 1)] ++ unsignedBytes h.share ++ [h.tag],
        { s with holds := s.holds.dropLast })
    else refuse .notHolder s

/-- RESUME (R57). -/
def execResume (p : MasterId) (s : State) : Result :=
  taking (.resume p) p s (resumeOwner p)

/-- Share control's part of a LIST HOLDS (R67). -/
def listHoldsOwner (_ : Frame) (s : State) : List Byte × State :=
  ([ResultCode.accepted.code, byteOf s.holds.length] ++ s.holds.flatMap HoldRecord.bytes, s)

/-- LIST HOLDS (R67). -/
def execListHolds (p : MasterId) (s : State) : Result :=
  taking (.listHolds p) p s listHoldsOwner

/-! ## The LAPSE record and the removal on a master link break -/

/-- The LAPSE record (R60). -/
def lapseRecord (live : Nat) : HoldRecord where
  holder := .allocator
  origin := .lapse
  share := live
  captured := true
  tag := 0#8

/-- The lapse push (R60). -/
def lapsePush (s : State) : State :=
  { s with holds := s.holds ++ [lapseRecord s.liveShare] }

/-- The lapse removal, from the position the record holds (R62). -/
def lapseRemoval (s : State) : State :=
  { s with holds := s.holds.filter fun h => !(h.origin = .lapse) }

/-- Whether a record is a MASTER record of a port. -/
def HoldRecord.heldBy (h : HoldRecord) (p : MasterId) : Bool :=
  h.origin = .master && h.holder = p.holder

/-- On a master link break the port's MASTER records are removed, and the other master port's set gets HOLD_REMOVED if
there was one (R64). -/
def removeHolds (p : MasterId) (s : State) : State :=
  raiseIf (s.holds.any fun h => h.heldBy p) p.other .holdRemoved
    { s with holds := s.holds.filter fun h => !h.heldBy p }

end Sys2Proof.Machine
end

