-- ==== Sys2Proof/Machine/Links.lean ====
section
/-! DEFINITION. The receivers and link states of the four ports (spec/09_serial_links.md): characters, completed frames,
receive faults, idle gaps, breaks and the return to UP; the end of a break sent by the part. -/

namespace Sys2Proof.Machine

/-! ## Frames completed and faults -/

/-- A well-formed frame completes on a master link: it joins the receive queue, or is dropped with FRAME_DROPPED when
the queue is full (R169, R180). -/
def masterFrameTaken (p : MasterId) (f : Frame) (s : State) : State :=
  if (s.master p).rxQueue.length < Config.receiveQueueSize then s.onMaster p (MasterPort.enqueue f)
  else raise p .frameDropped s

/-- A completed frame is handed inward (R177). -/
def frameTaken (l : Link) (f : Frame) (s : State) : State :=
  match l with
  | .master p => masterFrameTaken p f s
  | .axle a => axleFrameTaken a f s

/-- A receive fault is reported: LINK_FAULT with its kind in the port's own set, or AXLE_LINK_FAULT in both (R178). -/
def reportFault (l : Link) (k : LinkFault) (s : State) : State :=
  match l with
  | .master p => s.onAlert p (AlertUnit.recordFault k)
  | .axle _ => raiseBoth .axleLinkFault s

/-- A fault is reported and the receiver goes to `r`. -/
def faultTo (l : Link) (k : LinkFault) (r : Receiver) (s : State) : State :=
  reportFault l k (s.setReceiver l r)

/-- The frame that a receiver has assembled up to its check character, if it has. -/
def Receiver.assembled : Receiver → Option Frame
  | .awaitPayload kind len got => if len ≤ got.length then some ⟨kind, got⟩ else none
  | .idle => none
  | .awaitLength _ => none
  | .discarding => none

/-! ## Correct characters (R177) -/

/-- An unmarked character inside a frame whose length is known: the next payload byte, or the check character, on which
the frame's sum is judged (R177). -/
def payloadCharacter (l : Link) (kind : Byte) (len : Nat) (got : List Byte) (b : Byte) (s : State) : State :=
  if got.length < len then s.setReceiver l (.awaitPayload kind len (got ++ [b]))
  else if b = (Frame.mk kind got).check then frameTaken l ⟨kind, got⟩ (s.setReceiver l .idle)
  else faultTo l .check .idle s

/-- A correct character on an UP link (R177): marked, it begins a frame, and inside a frame the partial frame is
discarded with TRUNCATED; unmarked, it is the length, a payload byte or the check character, a stray in IDLE, and passed
over in DISCARDING. -/
def correctCharacter (l : Link) (marked : Bool) (b : Byte) (s : State) : State :=
  match marked, s.receiverOf l with
  | true, .idle => s.setReceiver l (.awaitLength b)
  | true, .discarding => s.setReceiver l (.awaitLength b)
  | true, .awaitLength _ => faultTo l .truncated (.awaitLength b) s
  | true, .awaitPayload _ _ _ => faultTo l .truncated (.awaitLength b) s
  | false, .idle => faultTo l .stray .idle s
  | false, .discarding => s
  | false, .awaitLength kind =>
    if lengthAllowed l kind b.toNat then s.setReceiver l (.awaitPayload kind b.toNat [])
    else faultTo l .length .discarding s
  | false, .awaitPayload kind len got => payloadCharacter l kind len got b s

/-- The fault of a faulty character, or none where its bits are noise or correct (R177, R178). -/
def characterFault (c : LineCharacter) : Option LinkFault :=
  match readCharacter c with
  | .noise => none
  | .framing => some .framing
  | .parity => some .parity
  | .correct _ _ => none

/-- Twelve bits on an UP link (R173, R177): a faulty character is a fault in every assembly state, after which the rest of
the frame is passed over; noise is ignored; a correct character is acted on. -/
def receivedCharacter (l : Link) (c : LineCharacter) (s : State) : State :=
  match readCharacter c with
  | .noise => s
  | .framing => faultTo l .framing .discarding s
  | .parity => faultTo l .parity .discarding s
  | .correct marked b => correctCharacter l marked b s

/-- CHARACTER_RECEIVED (R177): the bits of a correct character with this mark and data have arrived (R173). A link that
is not UP assembles nothing and raises no fault (R174). A character at which another row of the table stands (a fault, a
check character) has that row's effect (log 10). -/
def execCharacterReceived (l : Link) (marked : Bool) (b : Byte) (s : State) : Result :=
  whileReleased s fun s => if s.linkOf l = .up then receivedCharacter l (lineCharacter marked b) s else s

/-- The step of a completed frame: the receiver of an UP link holds a whole frame that this row accepts, and its correct
check character arrives; otherwise the step does not occur (log 3). -/
def completing (l : Link) (accepts : Frame → Bool) (s : State) (k : Frame → State → State) : Result :=
  whileReleased s fun s =>
    match (s.receiverOf l).assembled with
    | some f => if s.linkOf l = .up && accepts f then k f (s.setReceiver l .idle) else s
    | none => s

/-- FRAME_RECEIVED (R180). -/
def execFrameReceived (p : MasterId) (s : State) : Result :=
  completing (.master p) (fun _ => true) s (masterFrameTaken p)

/-- FEEDBACK (R104): the completed frame is a FEEDBACK; a frame of another kind is the row AXLE_FOREIGN_FRAME. -/
def execFeedback (a : AxleId) (s : State) : Result :=
  completing (.axle a) (fun f => f.kind = Kind.feedback) s (feedbackTaken a)

/-- AXLE_FOREIGN_FRAME (R105): the completed frame is of a kind other than FEEDBACK. -/
def execAxleForeignFrame (a : AxleId) (s : State) : Result :=
  completing (.axle a) (fun f => f.kind ≠ Kind.feedback) s fun _ t => raiseBoth .axleLinkFault t

/-! ## Receive faults (R177, R178) -/

/-- A receive fault in an assembly state (R177): the fault's kind and the receiver it leaves, or none where that fault
cannot be met there. A faulty character is a fault in every state. -/
def faultEffect (c : FaultCause) (r : Receiver) : Option (LinkFault × Receiver) :=
  match c, r with
  | .character c, _ => (characterFault c).map fun k => (k, .discarding)
  | .check, r => if r.assembled.isSome then some (.check, .idle) else none
  | .length, .awaitLength _ => some (.length, .discarding)
  | .truncated kind, .awaitLength _ => some (.truncated, .awaitLength kind)
  | .truncated kind, .awaitPayload _ _ _ => some (.truncated, .awaitLength kind)
  | .stray, .idle => some (.stray, .idle)
  | _, _ => none

/-- RECEIVE_FAULT (R178): taken on an UP link in a state where the fault can be met; otherwise it does not occur (R174;
log 3). -/
def execReceiveFault (l : Link) (c : FaultCause) (s : State) : Result :=
  whileReleased s fun s =>
    match faultEffect c (s.receiverOf l) with
    | some (k, r) => if s.linkOf l = .up then faultTo l k r s else s
    | none => s

/-- The idle gap on an UP link (R177). -/
def idleGap (l : Link) (s : State) : State :=
  match s.receiverOf l with
  | .idle => s
  | .discarding => s.setReceiver l .idle
  | .awaitLength _ => faultTo l .truncated .idle s
  | .awaitPayload _ _ _ => faultTo l .truncated .idle s

/-- FRAME_GAP_TIMEOUT (R177). -/
def execFrameGapTimeout (l : Link) (s : State) : Result :=
  whileReleased s fun s => if s.linkOf l = .up then idleGap l s else s

/-! ## Breaks and the return to UP -/

/-- Parts 1 to 4 of a master link break (R171), with the receiver's partial frame dropped (R175) and IDLE held while the
link is not UP (DESIGN CHOICE, log 18). -/
def MasterPort.linkBroken (m : MasterPort) : MasterPort :=
  (({ m with
      link := .broken
      receiver := .idle
      rxQueue := []
      replyQueue := []
      mirrorSlot := none
      alert := m.alert.clear.recordFault .brk }).judge).cutOff

/-- MASTER_LINK_BREAK (R171): taken while the link is UP (R174, R175); part 5 is share control's and the claim table's
(R22, R64). -/
def execMasterLinkBreak (p : MasterId) (s : State) : Result :=
  whileReleased s fun s =>
    if (s.master p).link = .up then orphanClaims p (removeHolds p (s.onMaster p MasterPort.linkBroken)) else s

/-- LINK_UP (R174): a DOWN or BROKEN link becomes UP, its receiver in IDLE; an UP link stays as it is (log 3). -/
def execLinkUp (l : Link) (s : State) : Result :=
  whileReleased s fun s => if s.linkOf l = .up then s else (s.setLink l .up).setReceiver l .idle

/-- BREAK_SENT (R182): the transmitter becomes idle and takes what is waiting (R101, R167). -/
def execBreakSent (l : Link) (s : State) : Result :=
  whileReleased s fun s =>
    match l with
    | .master p => s.onMaster p MasterPort.breakEnded
    | .axle a => s.onAxle a AxleUnit.breakEnded

end Sys2Proof.Machine
end

