-- ==== Sys2Proof/Machine/Allocation.lean ====
section
/-! DEFINITION. One allocation (spec/04_allocation.md): its inputs, its eight stages, its records and its hand-offs, with
the events elsewhere that fall between its parts (R95, R96; log 6). -/

namespace Sys2Proof.Machine

/-- The inputs of an allocation (R71, R72) and the allocator state that its record reports (R89). -/
structure AllocInput where
  requested : Int
  speed : Int
  load : Nat
  demandSequence : Byte
  state : AllocState
  deriving DecidableEq, Repr

/-- The two axles' targets, and for each axle whether a clamp of stage 5 found the value above the ceiling or below the
floor (R80). -/
structure Placement where
  front : Int
  rear : Int
  frontAbove : Bool
  frontBelow : Bool
  rearAbove : Bool
  rearBelow : Bool
  deriving DecidableEq, Repr

/-! ## Stage 4: the split -/

/-- The front target: the clipped total by the live share, truncated toward zero, when both axles are available (R78). -/
def frontSplit (av : Availability) (total : Int) (share : Nat) : Int :=
  match av with
  | .both => (total * share).tdiv 1000
  | .frontOnly => total
  | .rearOnly => 0
  | .neither => 0

/-- The rear target: the rest of the clipped total (R78). -/
def rearSplit (av : Availability) (total : Int) (share : Nat) : Int :=
  match av with
  | .both => total - frontSplit .both total share
  | .frontOnly => 0
  | .rearOnly => total
  | .neither => 0

/-! ## Stage 5: bands and excess -/

/-- A clamp found the value above the band's ceiling. -/
def Band.above (b : Band) (v : Int) : Bool :=
  decide (b.used.ceiling < v)

/-- A clamp found the value below the band's floor. -/
def Band.below (b : Band) (v : Int) : Bool :=
  decide (v < b.used.floor)

/-- What an excess adds to the other axle's target: all of it under SPILL, nothing under SHED, by the setting of the
excess's own side (R80, R81). -/
def spilled (q : Policy) (excess : Int) : Int :=
  if 0 < excess then (if q.ceilingExcess = .spill then excess else 0)
  else if excess < 0 then (if q.floorExcess = .spill then excess else 0)
  else 0

/-- The five passes with both axles available (R80): `f0` and `r0` are the targets of stage 4. -/
def placeBoth (q : Policy) (fb rb : Band) (f0 r0 : Int) : Placement :=
  let f1 := fb.clamp f0
  let r1 := r0 + spilled q (f0 - f1)
  let r2 := rb.clamp r1
  let f2 := f1 + spilled q (r1 - r2)
  { front := fb.clamp f2
    rear := r2
    frontAbove := fb.above f0 || fb.above f2
    frontBelow := fb.below f0 || fb.below f2
    rearAbove := rb.above r1
    rearBelow := rb.below r1 }

/-- Stage 5 (R79, R80). -/
def place (av : Availability) (q : Policy) (fb rb : Band) (f0 r0 : Int) : Placement :=
  match av with
  | .both => placeBoth q fb rb f0 r0
  | .frontOnly =>
    { front := fb.clamp f0, rear := 0, frontAbove := fb.above f0, frontBelow := fb.below f0,
      rearAbove := false, rearBelow := false }
  | .rearOnly =>
    { front := 0, rear := rb.clamp r0, frontAbove := false, frontBelow := false,
      rearAbove := rb.above r0, rearBelow := rb.below r0 }
  | .neither =>
    { front := 0, rear := 0, frontAbove := false, frontBelow := false, rearAbove := false, rearBelow := false }

/-! ## Stages 7 and 8: commands and limit codes -/

/-- The previous command moved toward the target by at most the slew (R83). -/
def slewMove (p t slew : Int) : Int :=
  if p + slew < t then p + slew else if t < p - slew then p - slew else t

/-- The command of one axle: the moved value brought into the band, or 0 for an axle that is not available (R83, R84,
R85). -/
def command (available : Bool) (b : Band) (p t slew : Int) : Int :=
  if available then b.clamp (slewMove p t slew) else 0

/-- The limit code of one axle: the first that holds (R86). -/
def limitCode (available : Bool) (b : Band) (cmd t : Int) (above below : Bool) : LimitCode :=
  if !available then .standby
  else if b.inverted then .inverted
  else if cmd ≠ t then .slew
  else if above then .ceiling
  else if below then .floor
  else .free

/-- The COMMAND record of one axle (R88). -/
def commandRecord (sequence : Byte) (available : Bool) (b : Band) (cmd : Int) : CommandRecord where
  sequence := sequence
  mode := if available then .drive else .standby
  torque := cmd
  ceiling := b.used.ceiling
  floor := b.used.floor

/-- The unplaced torque as the record carries it (R90). -/
def carriedUnplaced (v : Int) : Int :=
  max (-Config.maxCarriedUnplaced) (min Config.maxCarriedUnplaced v)

/-! ## The results of an allocation -/

/-- What an allocation forms (R88, R89): its clipped total, exact unplaced torque, whether a band was inverted, both
COMMAND records and the result record. -/
structure Allocation where
  clipped : Int
  unplaced : Int
  inverted : Bool
  frontCommand : CommandRecord
  rearCommand : CommandRecord
  result : ResultRecord
  deriving DecidableEq, Repr

/-- One axle's part of the result record (R89). -/
def axleResult (u : AxleUnit) (b : Band) (cmd t : Int) (above below : Bool) : AxleResult where
  command := cmd
  limit := limitCode u.state.available b cmd t above below
  state := u.state
  delivered := u.lastDelivered
  speed := u.lastSpeed

/-- Stages 4 to 8 and the records, from the sequence, the band record, the clipped total, the live share and the two
axles as read in stage 3 (R76, R78 to R90). -/
def formAllocation (inp : AllocInput) (q : Policy) (sequence : Byte) (bands : BandRecord) (front rear : AxleUnit)
    (live : Nat) : Allocation :=
  let clipped := bands.total.clamp inp.requested
  let av := availability front.state.available rear.state.available
  let pl := place av q bands.front bands.rear (frontSplit av clipped live) (rearSplit av clipped live)
  let unplaced := clipped - pl.front - pl.rear
  let fc := command front.state.available bands.front front.lastCommanded pl.front bands.frontSlew
  let rc := command rear.state.available bands.rear rear.lastCommanded pl.rear bands.rearSlew
  { clipped := clipped
    unplaced := unplaced
    inverted := bands.front.inverted || bands.rear.inverted || bands.total.inverted
    frontCommand := commandRecord sequence front.state.available bands.front fc
    rearCommand := commandRecord sequence rear.state.available bands.rear rc
    result :=
      { code := if clipped = inp.requested then .accepted else .clamped
        sequence := sequence
        demandSequence := inp.demandSequence
        state := inp.state
        unplaced := carriedUnplaced unplaced
        liveShare := live
        front := axleResult front bands.front fc pl.front pl.frontAbove pl.frontBelow
        rear := axleResult rear bands.rear rc pl.rear pl.rearAbove pl.rearBelow } }

/-- The flags of an allocation, and its records at the allocator (R70, R82, R87). -/
def recordAllocation (al : Allocation) (s : State) : State :=
  raiseBothIf (al.unplaced ≠ 0) .unplaced
    (raiseBothIf al.inverted .bandInverted
      { s with alloc := { s.alloc with lastClipped := al.clipped, lastResult := some al.result } })

/-- The COMMAND record of an axle. -/
def Allocation.commandOf (al : Allocation) : AxleId → CommandRecord
  | .front => al.frontCommand
  | .rear => al.rearCommand

/-- The hand-over of a result record to a port's mirror slot (R94, R166). The arbiter takes it at once, but on the port
whose decoder is taking the DEMAND that started the allocation, where it runs after the reply (R167; log 5). -/
def mirrorHandOver (replying : Option MasterId) (p : MasterId) (r : ResultRecord) (s : State) : State :=
  s.onMaster p fun m => if replying = some p then m.mirrorHandoff r else (m.mirrorHandoff r).arbitrate

/-! ## The allocation inside which nothing falls -/

/-- Stages 1 to 3: the counter advances, the claim table and share control serve the allocation in their acts (R74, R75,
R77). -/
def allocationActs (inp : AllocInput) (s : State) : State :=
  shareAct (availability s.front.state.available s.rear.state.available) inp.load inp.speed
    (claimTableAct { s with alloc := { s.alloc with counter := s.alloc.counter + 1#8 } })

/-- What the allocation started in state `s` forms when nothing falls inside it. The bands are those of the entries as
they stand before the act ages them (R20); the live share is the one that share control's act leaves (R77). -/
def allocationOf (inp : AllocInput) (s : State) : Allocation :=
  formAllocation inp s.config.policy (s.alloc.counter + 1#8) (bandRecord s.table s.config) s.front s.rear
    (allocationActs inp s).liveShare

/-- The hand-offs of a DEMAND's allocation (R92, R94). -/
def handOffs (al : Allocation) (s : State) : State :=
  mirrorHandOver (some .demand) .stability al.result
    (mirrorHandOver (some .demand) .demand al.result
      (commandHandoff .rear al.rearCommand (commandHandoff .front al.frontCommand s)))

/-- A DEMAND's allocation inside which nothing falls (R69): the acts, the records and the hand-offs. -/
def allocate (inp : AllocInput) (s : State) : State :=
  handOffs (allocationOf inp s) (recordAllocation (allocationOf inp s) (allocationActs inp s))

/-! ## The events that fall inside an allocation (R95, R96) -/

/-- The owner of a request row other than the allocator's own two, DEMAND and RESTART (R158, R160). -/
def ownerInside : Instr → Option (Frame → State → List Byte × State)
  | .claim p => some (claimOwner p)
  | .release p => some (releaseOwner p)
  | .releaseAll p => some (releaseAllOwner p)
  | .hold p => some (holdOwner p)
  | .resume p => some (resumeOwner p)
  | .configureEnvelope p => some (envelopeOwner p)
  | .configurePolicy p => some (policyOwner p)
  | .configureMotion p => some (motionOwner p)
  | .configureTiming p => some (timingOwner p)
  | .configureLoadBands p => some (loadBandsOwner p)
  | .configureSpeedBands p => some (speedBandsOwner p)
  | .configureAlert p => some (alertOwner p)
  | .configureUnknownSection _ => some fun _ s => refuse .badField s
  | .mapWrite p => some (onDemandLink p mapWriteOwner)
  | .mapFill p => some (onDemandLink p mapFillOwner)
  | .mapRead _ => some mapReadOwner
  | .status p => some (statusOwner p)
  | .listClaims _ => some listClaimsOwner
  | .listHolds _ => some listHoldsOwner
  | .unknownRequest _ => some fun _ s => refuse .unknownRequest s
  | .demand .stability => some fun _ s => refuse .notPermitted s
  | .restart .stability => some fun _ s => refuse .notPermitted s
  | _ => none

/-- The taking of the head frame of a port inside an allocation. A DEMAND or RESTART that reaches the allocator is taken
before the allocation or after it, never inside (R73). -/
def requestInside (p : MasterId) (s : State) : Result :=
  match (s.master p).rxQueue.head? with
  | some f =>
    match ownerInside (decodeRequest p f) with
    | some owner => taking (decodeRequest p f) p s owner
    | none => .next s
  | none => .next s

/-- The meaning of an event inside an allocation. On the link whose DEMAND started the allocation no other request is
taken and no break falls inside: the taking of the DEMAND is one act (R159; log 6). -/
def eventOutcome (replying : Option MasterId) (e : InnerEvent) (s : State) : Result :=
  match e with
  | .request p => if replying = some p then .next s else requestInside p s
  | .commandComplete a => execCommandComplete a s
  | .feedbackWindowExpiry a => execFeedbackWindowExpiry a s
  | .feedback a => execFeedback a s
  | .axleForeignFrame a => execAxleForeignFrame a s
  | .frameReceived p => execFrameReceived p s
  | .receiveFault l c => execReceiveFault l c s
  | .frameGapTimeout l => execFrameGapTimeout l s
  | .masterLinkBreak p => if replying = some p then .next s else execMasterLinkBreak p s
  | .axleLinkBreak a => execAxleLinkBreak a s
  | .linkUp l => execLinkUp l s
  | .masterFrameSent p => execMasterFrameSent p s
  | .breakSent l => execBreakSent l s
  | .characterReceived l marked b => execCharacterReceived l marked b s

/-- The state after an event inside an allocation; none of these meanings stops. -/
def eventAfter (replying : Option MasterId) (e : InnerEvent) (s : State) : State :=
  match eventOutcome replying e s with
  | .next t => t
  | .fault r => nomatch r
  | .refused _ => s

/-! ## An allocation under way -/

/-- An allocation under way: its inputs, the port whose decoder waits for its reply, the excess settings (R81) and its
sequence (R74), what it has read so far, and the parts of writing and handing over that it has done. -/
structure Allocating where
  input : AllocInput
  replying : Option MasterId
  policy : Policy
  sequence : Byte
  bands : Option BandRecord
  front : Option AxleUnit
  rear : Option AxleUnit
  live : Option Nat
  done : List AllocPart
  deriving DecidableEq, Repr

/-- The start of an allocation (R74): the counter advances, nothing has been read, and what falls inside is taken up from
the front of its queue. -/
def startAllocating (replying : Option MasterId) (inp : AllocInput) (s : State) : Allocating × State :=
  ({ input := inp, replying := replying, policy := s.config.policy, sequence := s.alloc.counter + 1#8, bands := none,
     front := none, rear := none, live := none, done := [] },
    { s with inside := s.inside.tail, alloc := { s.alloc with counter := s.alloc.counter + 1#8 } })

/-- Whether everything that the records are formed from has been read. -/
def Allocating.complete (w : Allocating) : Bool :=
  w.bands.isSome && w.front.isSome && w.rear.isSome && w.live.isSome

/-- What the allocation forms from what it has read (stages 4 to 8). What it has not read stands in at its present value;
the records are used only once everything has been read (log 14). -/
def Allocating.formed (w : Allocating) (s : State) : Allocation :=
  formAllocation w.input w.policy w.sequence (w.bands.getD (bandRecord s.table s.config)) (w.front.getD s.front)
    (w.rear.getD s.rear) (w.live.getD s.liveShare)

/-- A part of writing or handing over the records, once, after everything has been read. -/
def Allocating.once (x : AllocPart) (w : Allocating) (s : State) (k : Allocation → State → State) : Allocating × State :=
  if w.complete && !w.done.contains x then ({ w with done := x :: w.done }, k (w.formed s) s) else (w, s)

/-- One part of an allocation, where it is due and has not been taken: the claim-table act and the reads in any order
(R76), the act of share control after both reads (R77), the rest after everything has been read. Each reads the state as
it stands at its own moment (R95, R96). -/
def takePart (x : AllocPart) (w : Allocating) (s : State) : Allocating × State :=
  match x with
  | .claimTable =>
    if w.bands.isNone then ({ w with bands := some (bandRecord s.table s.config) }, claimTableAct s) else (w, s)
  | .read .front => (if w.front.isNone then { w with front := some s.front } else w, s)
  | .read .rear => (if w.rear.isNone then { w with rear := some s.rear } else w, s)
  | .share =>
    match w.front, w.rear, w.live with
    | some f, some r, none =>
      let t := shareAct (availability f.state.available r.state.available) w.input.load w.input.speed s
      ({ w with live := some t.liveShare }, t)
    | _, _, _ => (w, s)
  | .record => w.once .record s recordAllocation
  | .handOver a => w.once (.handOver a) s fun al => commandHandoff a (al.commandOf a)
  | .mirror p => w.once (.mirror p) s fun al => mirrorHandOver w.replying p al.result

/-- Whether a part arrives with the reply: the hand-over of the result record to the port whose decoder waits for the
reply. Both are handed by one allocation and arrive together, the reply taken first (R167), so nothing falls between. -/
def withReply (replying : Option MasterId) (x : AllocPart) : Bool :=
  match x with
  | .mirror p => replying = some p
  | .claimTable | .read _ | .share | .record | .handOver _ => false

/-- One moment inside an allocation: a part of its own, or an event elsewhere, which changes nothing that the allocation
has read (R95). The part that arrives with the reply is left for the end (R167). -/
def takeMoment (m : AllocMoment) (ws : Allocating × State) : Allocating × State :=
  match m with
  | .part x => if withReply ws.1.replying x then ws else takePart x ws.1 ws.2
  | .event e => (ws.1, eventAfter ws.1.replying e ws.2)

/-- The parts of an allocation in the order of its stages and hand-offs (R74 to R94). -/
def partOrder : List AllocPart :=
  [.claimTable, .read .front, .read .rear, .share, .record, .handOver .front, .handOver .rear, .mirror .demand,
    .mirror .stability]

/-- An allocation run through what falls inside it, in order, and then through the parts that are still due, with no
event between them. -/
def allocating (replying : Option MasterId) (inp : AllocInput) (s : State) : Allocating × State :=
  partOrder.foldl (fun ws x => takePart x ws.1 ws.2)
    ((s.inside.headD []).foldl (fun ws m => takeMoment m ws) (startAllocating replying inp s))

/-- One allocation (R69), with what falls inside it: what it forms, and the state it leaves. -/
def allocateWith (replying : Option MasterId) (inp : AllocInput) (s : State) : Allocation × State :=
  ((allocating replying inp s).1.formed (allocating replying inp s).2, (allocating replying inp s).2)

end Sys2Proof.Machine
end

