-- ==== Sys2Proof/Machine/Demand.lean ====
section
/-! DEFINITION. Allocator states and demand supervision (spec/06_allocator_states_and_demand_supervision.md): DEMAND, the
lapse timers, the ramp-down and RESTART. -/

namespace Sys2Proof.Machine

/-! ## DEMAND -/

/-- The ranges of a DEMAND's fields (R132). -/
def demandValid (d : DemandFields) : Bool :=
  decide (-Config.maxTotalTorque ≤ d.total ∧ d.total ≤ Config.maxTotalTorque)
    && decide (-Config.maxSpeed ≤ d.speed ∧ d.speed ≤ Config.maxSpeed)
    && decide (d.load ≤ Config.maxLoad)

/-- The inputs of a DEMAND's allocation (R71). -/
def demandInput (d : DemandFields) : AllocInput where
  requested := d.total
  speed := d.speed
  load := d.load
  demandSequence := d.sequence
  state := .running

/-- The change of state before a DEMAND's allocation: a lapse ends with the LAPSE record removed, the allocator is
RUNNING, the lapse timer is started with the lapse time, and the last demand inputs are written (R71, R133, R134). -/
def enterRunning (d : DemandFields) (s : State) : State :=
  let base := if s.alloc.state = .lapsed then lapseRemoval s else s
  { base with
    alloc := { base.alloc with
      state := .running
      settled := false
      lapseTimer := .running s.config.timing.lapseTime
      lapseStepTimer := .stopped
      lastSpeed := d.speed
      lastLoad := d.load } }

/-- The allocator's part of a DEMAND (R132 to R134): its reply is the result record of the allocation it starts. A refused
DEMAND starts none, and nothing falls inside. -/
def demandOwner (f : Frame) (s : State) : List Byte × State :=
  if s.alloc.state = .unconfigured then refuse .notConfigured s
  else if !demandValid (readDemand f) then refuse .badField s
  else
    let done := allocateWith (some .demand) (demandInput (readDemand f)) (enterRunning (readDemand f) s)
    (done.1.result.bytes, done.2)

/-- DEMAND (R133). -/
def execDemand (p : MasterId) (s : State) : Result :=
  taking (.demand p) p s (onDemandLink p demandOwner)

/-! ## The lapse -/

/-- LAPSE_TIMER_EXPIRY (R136): taken in RUNNING while the lapse timer runs, otherwise it does not occur (log 3). -/
def execLapseTimerExpiry (s : State) : Result :=
  whileReleased s fun s =>
    match s.alloc.state, s.alloc.lapseTimer with
    | .running, .running _ =>
      raiseBoth .demandLapse
        { lapsePush s with
          alloc := { s.alloc with
            state := .lapsed
            settled := false
            lapseTimer := .stopped
            lapseStepTimer := .running s.config.timing.lapseStep } }
    | _, _ => s

/-- A total moved toward zero by the lapse slew (R72). -/
def lapseMove (total slew : Int) : Int :=
  if slew < total then total - slew else if total < -slew then total + slew else 0

/-- The inputs of a lapse step (R72). -/
def lapseInput (s : State) : AllocInput where
  requested := lapseMove s.alloc.lastClipped s.config.motion.lapseSlew
  speed := s.alloc.lastSpeed
  load := s.alloc.lastLoad
  demandSequence := 0#8
  state := .lapsed

/-- Whether a lapse step settles the ramp: clipped total 0 and both commands 0 (R91, R138). -/
def Allocation.settles (al : Allocation) : Bool :=
  decide (al.clipped = 0) && decide (al.result.front.command = 0) && decide (al.result.rear.command = 0)

/-- The end of a lapse step: the settled marker is set, or the lapse-step timer is restarted (R138). -/
def endLapseStep (settles : Bool) (s : State) : State :=
  { s with alloc := { s.alloc with
      settled := settles
      lapseStepTimer := if settles then .stopped else .running s.config.timing.lapseStep } }

/-- A lapse step (R138): the allocation, at whose end the ramp is judged. No reply is made (R93). -/
def lapseStepOf (s : State) : State :=
  let done := allocateWith none (lapseInput s) s
  endLapseStep done.1.settles done.2

/-- LAPSE_STEP (R138): taken in LAPSED, not settled, while the lapse-step timer runs, otherwise it does not occur
(log 3). -/
def execLapseStep (s : State) : Result :=
  whileReleased s fun s =>
    match s.alloc.state, s.alloc.settled, s.alloc.lapseStepTimer with
    | .lapsed, false, .running _ => lapseStepOf s
    | _, _, _ => s

/-! ## RESTART -/

/-- The allocator's own items on a RESTART (R143). -/
def Allocator.restart (al : Allocator) : Allocator :=
  { Allocator.powerOn with state := if al.state = .unconfigured then .unconfigured else .ready }

/-- A RESTART in every owner (R144): allocator, claim table, share control and hold stack, axle supervisors, and the four
transmitters. The configuration, the map, the alert units, the link states, the receivers and the queues are kept. -/
def restartAll (s : State) : State :=
  { s with
    alloc := s.alloc.restart
    table := []
    lastBands := none
    liveShare := 500
    forced := .none
    lastGoverning := 500
    holds := []
    front := s.front.restart
    rear := s.rear.restart
    demandPort := s.demandPort.sendBreak
    stabilityPort := s.stabilityPort.sendBreak }

/-- The allocator's part of a RESTART: the reply is the allocator state after it (R142). -/
def restartOwner (_ : Frame) (s : State) : List Byte × State :=
  ([ResultCode.accepted.code, byteOf s.alloc.restart.state.code], restartAll s)

/-- RESTART (R142, R143). -/
def execRestart (p : MasterId) (s : State) : Result :=
  taking (.restart p) p s (onDemandLink p restartOwner)

end Sys2Proof.Machine
end

