-- ==== Sys2Proof/Machine/Reset.lean ====
section
/-! DEFINITION. The RESET input (R147, R173, R182). -/

namespace Sys2Proof.Machine

/-- The bit rate that the straps BRS1 and BRS0 set (R173). -/
def strappedRate (brs1 brs0 : Bool) : BitRate :=
  match brs1, brs0 with
  | false, false => .kbit250
  | false, true => .kbit500
  | true, false => .kbit1000
  | true, true => .kbit2000

/-- RESET_ASSERT (R147): every block takes its power-on values and the lines are held at their reset levels. The queue
of waiting commands and what falls inside the next allocations are no part of the machine and are kept (log 1, log 6). -/
def execResetAssert (s : State) : Result :=
  .next { State.powerOn with pending := s.pending, inside := s.inside }

/-- The release of RESET (R147): the power-on values, the straps read, and a break sent by each transmitter. -/
def releaseReset (brs1 brs0 : Bool) (s : State) : State :=
  { State.powerOn with
    pending := s.pending
    inside := s.inside
    resetAsserted := false
    bitRate := strappedRate brs1 brs0
    demandPort := { MasterPort.powerOn with tx := .breaking }
    stabilityPort := { MasterPort.powerOn with tx := .breaking }
    front := { AxleUnit.powerOn with tx := .breaking }
    rear := { AxleUnit.powerOn with tx := .breaking } }

/-- RESET_RELEASE (R147): taken while RESET is asserted; otherwise it does not occur (log 3). -/
def execResetRelease (brs1 brs0 : Bool) (s : State) : Result :=
  .next (if s.resetAsserted then releaseReset brs1 brs0 s else s)

end Sys2Proof.Machine
end

