-- ==== Sys2Proof/Machine/Dispatch.lean ====
section
/-! DEFINITION. The meaning of every command: one arm per row of spec/opcode_table.json. -/

namespace Sys2Proof.Machine

def exec (i : Instr) (s : State) : Host.Outcome State Fault Refusal :=
  match i with
  | .demand p => Sys2Proof.Machine.execDemand p s
  | .claim p => Sys2Proof.Machine.execClaim p s
  | .release p => Sys2Proof.Machine.execRelease p s
  | .releaseAll p => Sys2Proof.Machine.execReleaseAll p s
  | .hold p => Sys2Proof.Machine.execHold p s
  | .resume p => Sys2Proof.Machine.execResume p s
  | .configureEnvelope p => Sys2Proof.Machine.execConfigureEnvelope p s
  | .configurePolicy p => Sys2Proof.Machine.execConfigurePolicy p s
  | .configureMotion p => Sys2Proof.Machine.execConfigureMotion p s
  | .configureTiming p => Sys2Proof.Machine.execConfigureTiming p s
  | .configureLoadBands p => Sys2Proof.Machine.execConfigureLoadBands p s
  | .configureSpeedBands p => Sys2Proof.Machine.execConfigureSpeedBands p s
  | .configureAlert p => Sys2Proof.Machine.execConfigureAlert p s
  | .mapWrite p => Sys2Proof.Machine.execMapWrite p s
  | .mapFill p => Sys2Proof.Machine.execMapFill p s
  | .mapRead p => Sys2Proof.Machine.execMapRead p s
  | .status p => Sys2Proof.Machine.execStatus p s
  | .listClaims p => Sys2Proof.Machine.execListClaims p s
  | .listHolds p => Sys2Proof.Machine.execListHolds p s
  | .restart p => Sys2Proof.Machine.execRestart p s
  | .unknownRequest p => Sys2Proof.Machine.execUnknownRequest p s
  | .lapseTimerExpiry => Sys2Proof.Machine.execLapseTimerExpiry s
  | .lapseStep => Sys2Proof.Machine.execLapseStep s
  | .commandComplete a => Sys2Proof.Machine.execCommandComplete a s
  | .feedbackWindowExpiry a => Sys2Proof.Machine.execFeedbackWindowExpiry a s
  | .feedback a => Sys2Proof.Machine.execFeedback a s
  | .axleForeignFrame a => Sys2Proof.Machine.execAxleForeignFrame a s
  | .frameReceived p => Sys2Proof.Machine.execFrameReceived p s
  | .receiveFault l c => Sys2Proof.Machine.execReceiveFault l c s
  | .frameGapTimeout l => Sys2Proof.Machine.execFrameGapTimeout l s
  | .masterLinkBreak p => Sys2Proof.Machine.execMasterLinkBreak p s
  | .axleLinkBreak a => Sys2Proof.Machine.execAxleLinkBreak a s
  | .linkUp l => Sys2Proof.Machine.execLinkUp l s
  | .masterFrameSent p => Sys2Proof.Machine.execMasterFrameSent p s
  | .breakSent l => Sys2Proof.Machine.execBreakSent l s
  | .resetAssert => Sys2Proof.Machine.execResetAssert s
  | .resetRelease brs1 brs0 => Sys2Proof.Machine.execResetRelease brs1 brs0 s
  | .characterReceived l marked data => Sys2Proof.Machine.execCharacterReceived l marked data s
  | .configureUnknownSection p => Sys2Proof.Machine.execConfigureUnknownSection p s

end Sys2Proof.Machine
end

