-- ==== Sys2Proof/WellFormed.lean ====
section
/-! DEFINITION. Well-formedness. A command of `Instr` has no ill-formed term: each of its operands is of a type with no
value outside the row's rule (a port, an axle, a link, a fault cause, a mark bit, a byte, a strap level). What can be
ill-formed is what travels on a link: a frame (R176, R179) and a request whose fields its layout cannot carry (R183). -/

namespace Sys2Proof

/-- A frame that a receiver hands inward on link `l`: a payload of at most 24 bytes (R176), of a length allowed for its
kind (R179). -/
def Frame.wellFormed (l : Link) (f : Frame) : Bool :=
  decide (f.payload.length ≤ Config.maxPayload) && lengthAllowed l f.kind f.payload.length

/-- A value that a signed two-byte field carries (R176). -/
def carriedSigned (v : Int) : Bool :=
  decide (-32768 ≤ v ∧ v ≤ 32767)

/-- A value that an unsigned two-byte field carries. -/
def carriedUnsigned (n : Nat) : Bool :=
  decide (n < 65536)

/-- A value that a one-byte field carries. -/
def carriedByte (n : Nat) : Bool :=
  decide (n < 256)

/-- A request whose every field its layout carries (R183). A field may still lie outside the range that the request's
owner accepts. -/
def Request.wellFormed : Request → Bool
  | .demand d => carriedSigned d.total && carriedSigned d.speed && carriedByte d.load
  | .claim c => carriedSigned c.value && carriedByte c.lifetime
  | .release _ _ => true
  | .releaseAll => true
  | .hold h => carriedUnsigned h.share
  | .resume => true
  | .envelope e => carriedSigned e.frontUpper && carriedSigned e.frontLower && carriedSigned e.rearUpper
      && carriedSigned e.rearLower && carriedSigned e.totalUpper && carriedSigned e.totalLower
  | .policy _ => true
  | .motion m => carriedUnsigned m.shareSlew && carriedUnsigned m.frontSlew && carriedUnsigned m.rearSlew
      && carriedUnsigned m.lapseSlew
  | .timing t => carriedByte t.lapseTime && carriedByte t.lapseStep && carriedByte t.windowCount
      && carriedByte t.missLimit && carriedByte t.rejoinCount && carriedByte t.orphanLifetime
  | .loadBands bands => decide (bands.length ≤ 11) && bands.all carriedByte
  | .speedBands bands => decide (bands.length ≤ 11) && bands.all carriedByte
  | .alert _ _ => true
  | .mapWrite w => carriedByte w.row && carriedByte w.column && carriedByte w.count
      && decide (w.values.length ≤ 8) && w.values.all carriedUnsigned
  | .mapFill v => carriedUnsigned v
  | .mapRead row => carriedByte row
  | .status => true
  | .listClaims start => carriedByte start
  | .listHolds => true
  | .restart => true

end Sys2Proof
end

