-- ==== Sys2Proof/Safety.lean ====
section
/-! DEFINITION. What a sound state of the part is: the invariants that the rules of spec/ promise, and the terms in which
the statements speak of a waiting request, its answer and what a port has yet to send. -/

namespace Sys2Proof.Machine

/-! ## Requests and replies -/

/-- The decoder of port `p` takes frame `f` next (R159): RESET is released, `f` is the head of the receive queue and the
reply queue holds fewer than 4 replies. -/
def Ready (p : MasterId) (f : Frame) (s : State) : Prop :=
  s.resetAsserted = false ∧ (s.master p).rxQueue.head? = some f ∧ (s.master p).replyQueue.length < 4

/-- The state once the head frame has left the receive queue of port `p` (R159). -/
def taken (p : MasterId) (s : State) : State :=
  s.onMaster p MasterPort.dequeue

/-- The state once the reply to frame `f` has been placed on port `p` (R159, R161). -/
def answered (p : MasterId) (f : Frame) (payload : List Byte) (s : State) : State :=
  s.onMaster p (MasterPort.placeReply ⟨replyKind f.kind, payload⟩)

/-- The frames that a master port has taken for sending or holds as replies, in the order they leave (R161, R167). -/
def MasterPort.outgoing (m : MasterPort) : List Frame :=
  match m.tx with
  | .sending f _ => f :: m.replyQueue
  | .idle => m.replyQueue
  | .breaking => m.replyQueue

/-- The master port whose decoder a request row belongs to; a row that takes no request belongs to none. -/
def requestPort : Instr → Option MasterId
  | .demand p | .claim p | .release p | .releaseAll p | .hold p | .resume p => some p
  | .configureEnvelope p | .configurePolicy p | .configureMotion p | .configureTiming p => some p
  | .configureLoadBands p | .configureSpeedBands p | .configureAlert p | .configureUnknownSection p => some p
  | .mapWrite p | .mapFill p | .mapRead p | .status p | .listClaims p | .listHolds p => some p
  | .restart p | .unknownRequest p => some p
  | _ => none

/-- The row that an event inside an allocation is; the taking of a request is the row of its frame. -/
def eventRow : InnerEvent → Option Instr
  | .request _ => none
  | .commandComplete a => some (.commandComplete a)
  | .feedbackWindowExpiry a => some (.feedbackWindowExpiry a)
  | .feedback a => some (.feedback a)
  | .axleForeignFrame a => some (.axleForeignFrame a)
  | .frameReceived p => some (.frameReceived p)
  | .receiveFault l c => some (.receiveFault l c)
  | .frameGapTimeout l => some (.frameGapTimeout l)
  | .masterLinkBreak p => some (.masterLinkBreak p)
  | .axleLinkBreak a => some (.axleLinkBreak a)
  | .linkUp l => some (.linkUp l)
  | .masterFrameSent p => some (.masterFrameSent p)
  | .breakSent l => some (.breakSent l)
  | .characterReceived l marked b => some (.characterReceived l marked b)

/-- Frame `f` is complete but for its check character, which arrives next on the UP link `l` (R177). -/
def Completing (l : Link) (f : Frame) (s : State) : Prop :=
  s.resetAsserted = false ∧ s.linkOf l = .up ∧ (s.receiverOf l).assembled = some f

/-- A receive fault of kind `k` reported (R105, R169, R178): on a master link in the port's own set with its kind, on an
axle link in both sets. -/
def faultReported (l : Link) (k : LinkFault) (s : State) : State :=
  match l with
  | .master p => raise p .linkFault (s.onMaster p fun m => { m with alert := { m.alert with lastFault := some k } })
  | .axle _ => raiseBoth .axleLinkFault s

/-! ## Power-on values -/

/-- The power-on values of a master port, but for its transmitter (R172, R174, R177). -/
def MasterPort.atPowerOn (m : MasterPort) : Prop :=
  m.link = .down ∧ m.receiver = .idle ∧ m.rxQueue = [] ∧ m.holdoff = false ∧ m.waitingForRoom = false
    ∧ m.replyQueue = [] ∧ m.mirrorSlot = none ∧ m.alert.flags = 0#16 ∧ m.alert.masks = 0#16
    ∧ m.alert.mirrorEnable = false ∧ m.alert.lastFault = none ∧ m.alert.alertLine = false

/-- The power-on values of an axle supervisor and its port, but for its transmitter (R97, R126, R174). -/
def AxleUnit.atPowerOn (u : AxleUnit) : Prop :=
  u.link = .down ∧ u.receiver = .idle ∧ u.slot = none ∧ u.state = .offline ∧ u.missCount = 0 ∧ u.goodCount = 0
    ∧ u.outstanding = none ∧ u.lastCommanded = 0 ∧ u.lastDelivered = 0 ∧ u.lastSpeed = 0 ∧ u.window = .stopped

/-- The power-on values of the allocator (R70, R129). -/
def Allocator.atPowerOn (al : Allocator) : Prop :=
  al.state = .unconfigured ∧ al.settled = false ∧ al.lapseTimer = .stopped ∧ al.lapseStepTimer = .stopped
    ∧ al.counter = 0#8 ∧ al.lastSpeed = 0 ∧ al.lastLoad = 0 ∧ al.lastClipped = 0 ∧ al.lastResult = none

/-- The defaults of the configuration (R152 to R156). -/
def ConfigStore.atPowerOn (c : ConfigStore) : Prop :=
  c.envelope = ⟨4800, -3200, 6400, -4000, 11200, -7200⟩
    ∧ c.policy = ⟨.clamp, .clamp, .spill, .spill, .replace, .tighten⟩
    ∧ c.motion = ⟨25, 400, 400, 600⟩ ∧ c.timing = ⟨12, 2, 60, 3, 4, 50⟩
    ∧ c.loadBands = [45, 55] ∧ c.speedBands = [20, 60]

/-- Every block at its power-on values (R5, R32, R40, R53, R147). -/
def State.atPowerOn (s : State) : Prop :=
  s.demandPort.atPowerOn ∧ s.stabilityPort.atPowerOn ∧ s.front.atPowerOn ∧ s.rear.atPowerOn
    ∧ s.table = [] ∧ s.lastBands = none ∧ (∀ row column, row < 8 → column < 8 → readCell s.map row column = 500)
    ∧ s.liveShare = 500 ∧ s.forced = .none ∧ s.lastGoverning = 500 ∧ s.holds = []
    ∧ s.alloc.atPowerOn ∧ s.config.atPowerOn

/-! ## What the checks of a CLAIM judge -/

/-- The fields of a CLAIM name the key of `axle` and `kind` and lie within their raw ranges (R8). -/
def ClaimInRange (f : Frame) (axle : ClaimAxle) (kind : ClaimKind) : Prop :=
  readKey (f.byteAt 0) (f.byteAt 1) = some (axle, kind) ∧ f.natAt 4 ≤ 250
    ∧ (if kind = .slew then 1 ≤ f.signedAt 2 ∧ f.signedAt 2 ≤ 16000
       else if axle = .total then -32000 ≤ f.signedAt 2 ∧ f.signedAt 2 ≤ 32000
       else -16000 ≤ f.signedAt 2 ∧ f.signedAt 2 ≤ 16000)

/-- The envelope test of a claim or derate value `x` stores `v`, clamped or not (R9). -/
def EnvelopeStores (c : ConfigStore) (axle : ClaimAxle) (kind : ClaimKind) (x v : Int) (clamped : Bool) : Prop :=
  if kind = .slew then v = x ∧ clamped = false
  else if upperEdge c.envelope axle < x then
    c.policy.upperAction = .clamp ∧ v = upperEdge c.envelope axle ∧ clamped = true
  else if x < lowerEdge c.envelope axle then
    c.policy.lowerAction = .clamp ∧ v = lowerEdge c.envelope axle ∧ clamped = true
  else v = x ∧ clamped = false

/-- The envelope test of a claim or derate value `x` refuses it (R9). -/
def EnvelopeRefuses (c : ConfigStore) (axle : ClaimAxle) (kind : ClaimKind) (x : Int) : Prop :=
  if kind = .slew then False
  else if upperEdge c.envelope axle < x then c.policy.upperAction = .refuse
  else x < lowerEdge c.envelope axle ∧ c.policy.lowerAction = .refuse

/-- The entries under a claim key. -/
def entriesUnder (t : List ClaimEntry) (src : Source) (axle : ClaimAxle) (kind : ClaimKind) : List ClaimEntry :=
  t.filter fun e => e.source = src && e.axle = axle && e.kind = kind

/-- The table without the entries under a claim key. -/
def entriesNotUnder (t : List ClaimEntry) (src : Source) (axle : ClaimAxle) (kind : ClaimKind) : List ClaimEntry :=
  t.filter fun e => !(e.source = src && e.axle = axle && e.kind = kind)

/-- The entry that a CLAIM of port `p` stores (R13). -/
def claimStored (p : MasterId) (f : Frame) (axle : ClaimAxle) (kind : ClaimKind) (v : Int) (clamped : Bool) :
    ClaimEntry where
  source := p.source
  axle := axle
  kind := kind
  value := v
  lifetime := if f.natAt 4 = 0 then none else some (f.natAt 4)
  tag := f.byteAt 5
  clamped := clamped
  orphaned := false
  governing := false

/-- The entry that an inverter's derate stores (R18). -/
def derateStored (a : AxleId) (kind : ClaimKind) (v : Int) (clamped : Bool) : ClaimEntry where
  source := a.source
  axle := a.claimAxle
  kind := kind
  value := v
  lifetime := none
  tag := 0#8
  clamped := clamped
  orphaned := false
  governing := false

/-- The state once axle `a` has entered OFFLINE from another state (R116, R117). -/
def enteredOffline (a : AxleId) (s : State) : State :=
  raiseBoth .axleDown
    { s.onAxle a (fun u =>
        { u with
          state := .offline
          missCount := 0
          goodCount := 0
          lastCommanded := 0
          slot := u.slot.map fun r => if r.mode = .drive then { r with mode := .standby, torque := 0 } else r }) with
      table := s.table.filter fun e => !(e.source = a.source) }

/-! ## Invariants of one block each -/

/-- A port's queues keep their sizes (R159, R180), and HOLDOFF, the waiting-for-room marker and ALERT follow what they
report (R159, R170, R180); the unused flag and mask positions are clear (R157, R183). -/
def MasterPort.sound (m : MasterPort) : Bool :=
  decide (m.rxQueue.length ≤ 4) && decide (m.replyQueue.length ≤ 4)
    && decide (m.holdoff = decide (m.rxQueue.length = 4))
    && decide (m.waitingForRoom = (!m.rxQueue.isEmpty && decide (m.replyQueue.length = 4)))
    && decide (m.alert.alertLine = (m.alert.flags &&& ~~~m.alert.masks != 0#16))
    && !m.alert.flags.getLsbD 14 && !m.alert.flags.getLsbD 15
    && !m.alert.masks.getLsbD 14 && !m.alert.masks.getLsbD 15

/-- Both master ports. -/
def State.portsSound (s : State) : Bool :=
  s.demandPort.sound && s.stabilityPort.sound

/-- The keys that exist (R2): a master has every key but SLEW on TOTAL, an inverter CEILING and FLOOR of its own axle. -/
def ClaimEntry.keyLegal (e : ClaimEntry) : Bool :=
  match e.source with
  | .demand => !(e.kind = .slew && e.axle = .total)
  | .stability => !(e.kind = .slew && e.axle = .total)
  | .finv => e.axle = .front && !(e.kind = .slew)
  | .rinv => e.axle = .rear && !(e.kind = .slew)

/-- A CEILING or FLOOR value within the envelope edges of its axle (R10), a SLEW value within its range (R1). -/
def ClaimEntry.valueLegal (c : ConfigStore) (e : ClaimEntry) : Bool :=
  match e.kind with
  | .slew => decide (1 ≤ e.value ∧ e.value ≤ 16000)
  | .ceiling => decide (lowerEdge c.envelope e.axle ≤ e.value ∧ e.value ≤ upperEdge c.envelope e.axle)
  | .floor => decide (lowerEdge c.envelope e.axle ≤ e.value ∧ e.value ≤ upperEdge c.envelope e.axle)

/-- A lifetime of 1 to 250, or an absent one (R1). -/
def ClaimEntry.lifetimeLegal (e : ClaimEntry) : Bool :=
  match e.lifetime with
  | none => true
  | some n => decide (1 ≤ n ∧ n ≤ 250)

/-- An inverter entry is persistent and never orphaned, with tag 0 (R18, R19). -/
def ClaimEntry.inverterLegal (e : ClaimEntry) : Bool :=
  e.source.isMaster || (e.lifetime.isNone && e.tag = 0#8 && !e.orphaned)

/-- Two entries with the same claim key (R2). -/
def ClaimEntry.sameKey (a b : ClaimEntry) : Bool :=
  a.source = b.source && a.axle = b.axle && a.kind = b.kind

/-- The sections of the configuration store lie within their ranges (R152 to R156). -/
def ConfigStore.sound (c : ConfigStore) : Bool :=
  envelopeValid c.envelope && motionValid c.motion && timingValid c.timing && bandsValid 99 c.loadBands
    && bandsValid 250 c.speedBands

/-- The claim table (R1, R2, R4, R10) under a configuration within its ranges: legal entries, one for each key, at most
12 of the masters. -/
def State.tableSound (s : State) : Bool :=
  s.config.sound
    && s.table.all (fun e => e.keyLegal && e.valueLegal s.config && e.lifetimeLegal && e.inverterLegal)
    && decide (s.table.Pairwise fun a b => a.sameKey b = false)
    && decide (masterCount s.table ≤ 12)

/-- The number of records of origin LAPSE. -/
def lapseHolds (hs : List HoldRecord) : Nat :=
  hs.countP fun h => h.origin = .lapse

/-- Holder and origin agree, and a LAPSE record is captured with tag 0 (R51). -/
def HoldRecord.sound (h : HoldRecord) : Bool :=
  match h.origin with
  | .master => h.holder = .demandPort || h.holder = .stabilityPort
  | .lapse => h.holder = .allocator && h.captured && h.tag = 0#8

/-- The hold stack (R51, R52, R62): at most four MASTER records, and a LAPSE record exactly while the allocator is
LAPSED. -/
def State.stackSound (s : State) : Bool :=
  s.holds.all HoldRecord.sound && decide (masterHolds s.holds ≤ 4)
    && decide (lapseHolds s.holds = if s.alloc.state = .lapsed then 1 else 0)

/-- Every share lies from 0 to 1000 (R32, R40, R51). -/
def State.sharesSound (s : State) : Bool :=
  decide (s.liveShare ≤ 1000) && decide (s.lastGoverning ≤ 1000) && s.map.toList.all (fun v => decide (v ≤ 1000))
    && s.holds.all (fun h => decide (h.share ≤ 1000))

/-- Whether a timer runs. -/
def Timer.isRunning : Timer → Bool
  | .stopped => false
  | .running _ => true

/-- The allocator's timers and settled marker follow its state (R129). -/
def Allocator.sound (al : Allocator) : Bool :=
  decide (al.lapseTimer.isRunning = decide (al.state = .running))
    && decide (al.lapseStepTimer.isRunning = (decide (al.state = .lapsed) && !al.settled))
    && (!al.settled || decide (al.state = .lapsed))

/-- A COMMAND of mode DRIVE carries a torque between its floor and its ceiling, one of mode STANDBY carries zero torque
(R88). -/
def CommandRecord.sound (r : CommandRecord) : Bool :=
  match r.mode with
  | .drive => decide (r.floor ≤ r.torque ∧ r.torque ≤ r.ceiling)
  | .standby => decide (r.torque = 0)

/-- The COMMAND records that an axle port holds or sends. -/
def AxleUnit.commands (u : AxleUnit) : List CommandRecord :=
  u.slot.toList ++ match u.tx with
    | .sending r _ => [r]
    | .idle => []
    | .breaking => []

/-- Every COMMAND record held or sent is sound (R88). -/
def State.commandsSound (s : State) : Bool :=
  s.front.commands.all CommandRecord.sound && s.rear.commands.all CommandRecord.sound

/-- The counts that an axle state goes with (R98, R115). -/
def AxleUnit.countsSound (t : Timing) (u : AxleUnit) : Bool :=
  match u.state with
  | .offline => decide (u.missCount = 0) && decide (u.goodCount = 0)
  | .rejoining => decide (u.missCount = 0) && decide (1 ≤ u.goodCount ∧ u.goodCount < t.rejoinCount)
  | .online => decide (u.missCount = 0) && decide (u.goodCount = 0)
  | .suspect => decide (1 ≤ u.missCount ∧ u.missCount < t.missLimit) && decide (u.goodCount = 0)

/-- Nothing of an allocation is under way at an axle: OFFLINE, nothing outstanding, an empty slot, and no COMMAND in
transmission but one that a RESTART has voided (R101, R124). -/
def AxleUnit.quiet (u : AxleUnit) : Bool :=
  decide (u.state = .offline) && u.outstanding.isNone && u.slot.isNone
    && match u.tx with
      | .sending _ restarted => restarted
      | .idle => true
      | .breaking => true

/-- An axle supervisor with its port: counts (R98), the window timer (R97), an axle that is not available is commanded 0
by STANDBY records (R99, R103, R117), a link that is not UP leaves its axle OFFLINE with nothing outstanding, waiting or
sent (R103, R120), and a record waits only while the transmitter is busy (R100). -/
def AxleUnit.sound (t : Timing) (u : AxleUnit) : Bool :=
  u.countsSound t
    && decide (u.window.isRunning = u.outstanding.isSome)
    && (u.state.available || (decide (u.lastCommanded = 0) && u.slot.all fun r => decide (r.mode = .standby)))
    && (decide (u.link = .up) || (u.quiet && !(match u.tx with
        | .sending _ _ => true
        | .idle => false
        | .breaking => false)))
    && (u.slot.isNone || decide (u.tx ≠ .idle))

/-- Both axle supervisors; in UNCONFIGURED and READY nothing is under way at either axle, so no COMMAND begins
transmission there (R101, R123). -/
def State.axlesSound (s : State) : Bool :=
  s.front.sound s.config.timing && s.rear.sound s.config.timing
    && (!s.alloc.state.stationary || (s.front.quiet && s.rear.quiet))

end Sys2Proof.Machine
end

