-- ==== Sys2Proof/Certificates/Slice0/Obligations.lean ====
section
/-! DEFINITION. The statements for the provers. Each `Obligations.<Name>` is one statement; OBLIGATIONS.json lists them
with their titles and the rules or sections of spec/ they rest on. -/

section Statements

open Sys2Proof Sys2Proof.Machine

/-! ## Steps, commands and reset -/

/-- A step runs the command at the front of the queue on the rest of the queue, and idles on an empty queue (the queue
is the model's own, log 1). -/
def Obligations.StepRunsTheFrontCommand : Prop :=
  (∀ (c : Instr) (rest : List Instr) (s : State),
      step { s with pending := c :: rest } = exec c { s with pending := rest })
    ∧ ∀ s : State, s.pending = [] → step s = .next s

/-- No command ends in a fault or a refusal, and none changes the queue of waiting commands, which is the model's own
(log 1). That a row whose event cannot happen in the state answers the state as it was is the model's choice (log 3); the
statement on each row says in which states that is. -/
def Obligations.EveryCommandAnswersANextState : Prop :=
  ∀ (c : Instr) (s : State), ∃ t, exec c s = .next t ∧ t.pending = s.pending

/-- What reset leaves (R147), just after the release of RESET with both straps low (log 2), no command waiting (log 1)
and nothing to fall inside an allocation (log 6). That `atPowerOn` has the receivers of the DOWN links in IDLE is the
model's choice (log 18). -/
def Obligations.ResetLeavesThePowerOnValues : Prop :=
  State.reset.atPowerOn ∧ State.reset.pending = [] ∧ State.reset.inside = [] ∧ State.reset.resetAsserted = false
    ∧ State.reset.bitRate = .kbit250
    ∧ (∀ p, (State.reset.master p).tx = .breaking) ∧ ∀ a, (State.reset.axle a).tx = .breaking

/-- RESET_ASSERT, RESET_RELEASE (R147, R173, R182), and that nothing but the release acts while RESET is asserted
(log 9). That both rows keep the waiting commands and what falls inside the next allocations is the model's choice: the
two queues are its own (log 1, log 6). So is that `atPowerOn` has the receivers of the DOWN links in IDLE (log 18), and that
a release of RESET that was not asserted leaves the state as it was (log 3). -/
def Obligations.ResetHoldsAndReleasesThePart : Prop :=
  (∀ s : State, ∃ t, exec .resetAssert s = .next t ∧ t.atPowerOn ∧ t.resetAsserted = true ∧ t.pending = s.pending
      ∧ t.inside = s.inside ∧ (∀ p, (t.master p).tx = .idle) ∧ ∀ a, (t.axle a).tx = .idle)
    ∧ (∀ (s : State) (brs1 brs0 : Bool), s.resetAsserted = true →
        ∃ t, exec (.resetRelease brs1 brs0) s = .next t ∧ t.atPowerOn ∧ t.resetAsserted = false
          ∧ t.pending = s.pending ∧ t.inside = s.inside
          ∧ t.bitRate = (if brs1 then (if brs0 then .kbit2000 else .kbit1000)
              else (if brs0 then .kbit500 else .kbit250))
          ∧ (∀ p, (t.master p).tx = .breaking) ∧ ∀ a, (t.axle a).tx = .breaking)
    ∧ (∀ (c : Instr) (s : State), s.resetAsserted = true → c ≠ .resetAssert → (∀ b1 b0, c ≠ .resetRelease b1 b0) →
        exec c s = .next s)
    ∧ ∀ (s : State) (brs1 brs0 : Bool), s.resetAsserted = false → exec (.resetRelease brs1 brs0) s = .next s

/-- The invariants below hold at reset. -/
def Obligations.TheInvariantsHoldAtReset : Prop :=
  State.reset.portsSound = true ∧ State.reset.tableSound = true ∧ State.reset.stackSound = true
    ∧ State.reset.sharesSound = true ∧ State.reset.alloc.sound = true ∧ State.reset.commandsSound = true
    ∧ State.reset.axlesSound = true

/-! ## Requests and replies -/

/-- A decoder takes nothing while its receive queue is empty or its reply queue holds 4 replies, and takes the head
frame by the row of that frame alone (R159, R160). That a request row is a command of its own, for the frames of its kind,
and leaves the state as it was where it cannot take one is the model's choice (log 3, log 4). -/
def Obligations.NoRequestIsTakenWithoutAFrameAndReplyRoom : Prop :=
  ∀ (c : Instr) (p : MasterId) (s : State), requestPort c = some p →
    ((s.master p).rxQueue = [] ∨ 4 ≤ (s.master p).replyQueue.length → exec c s = .next s)
      ∧ ∀ f, Ready p f s → c ≠ decodeRequest p f → exec c s = .next s

/-- Each request taken yields exactly one reply on its link, the last of the frames in transmission or waiting as replies,
with a result code first and the kind code of R161 (R159, R161); a mirror record in the slot goes after it (R167). Where
events fall inside a DEMAND's allocation (log 6), they may move the frames before the reply. -/
def Obligations.EveryTakenRequestYieldsOneReply : Prop :=
  ∀ (p : MasterId) (f : Frame) (s : State), Ready p f s →
    ∃ t before reply, exec (decodeRequest p f) s = .next t
      ∧ (t.master p).outgoing = before ++ [reply]
      ∧ reply.kind = (if f.kind = 0x20#8 ∨ f.kind = 0xA0#8 then 0xFF#8 else f.kind ||| 0x80#8)
      ∧ reply.kind ≠ 0xA0#8
      ∧ (∃ r : ResultCode, reply.payload.head? = some r.code)
      ∧ ((decodeRequest p f = .demand .demand → s.inside = []) →
          before = (s.master p).outgoing
          ∧ (t.master p).rxQueue = (s.master p).rxQueue.tail
          ∧ (t.master p.other).rxQueue = (s.master p.other).rxQueue)

/-- Taking a frame removes the head of one receive queue, with HOLDOFF and the marker judged anew; placing a reply sends
it at once on an idle port with no reply waiting, and otherwise adds it at the tail (R159, R167, R180). Nothing else of
the state changes. -/
def Obligations.TakingAndAnsweringMoveOneFrame : Prop :=
  (∀ (p : MasterId) (s : State), taken p s = s.setMaster p
      { s.master p with
        rxQueue := (s.master p).rxQueue.tail
        holdoff := decide (4 ≤ (s.master p).rxQueue.tail.length)
        waitingForRoom :=
          !(s.master p).rxQueue.tail.isEmpty && decide (4 ≤ (s.master p).replyQueue.length) })
    ∧ (∀ (p : MasterId) (f : Frame) (payload : List Byte) (s : State),
        (s.master p).tx = .idle → (s.master p).replyQueue = [] →
        answered p f payload s = s.setMaster p
          { s.master p with
            tx := .sending ⟨replyKind f.kind, payload⟩ false
            holdoff := decide (4 ≤ (s.master p).rxQueue.length)
            waitingForRoom := false })
    ∧ ∀ (p : MasterId) (f : Frame) (payload : List Byte) (s : State),
        (s.master p).tx ≠ .idle →
        answered p f payload s = s.setMaster p
          { s.master p with
            replyQueue := (s.master p).replyQueue ++ [⟨replyKind f.kind, payload⟩]
            holdoff := decide (4 ≤ (s.master p).rxQueue.length)
            waitingForRoom :=
              !(s.master p).rxQueue.isEmpty && decide (3 ≤ (s.master p).replyQueue.length) }

/-- A frame of unknown kind is answered UNKNOWN_REQUEST, and DEMAND, MAP WRITE, MAP FILL and RESTART on the stability
link are answered NOT_PERMITTED; no owner is reached (R158, R160). -/
def Obligations.UnknownAndUnpermittedRequestsReachNoOwner : Prop :=
  (∀ (p : MasterId) (f : Frame) (s : State), Ready p f s →
      f.kind ∉ [0x21#8, 0x31#8, 0x32#8, 0x33#8, 0x41#8, 0x42#8, 0x51#8, 0x52#8, 0x53#8, 0x54#8, 0x61#8, 0x62#8,
        0x63#8, 0x7E#8] →
      exec (.unknownRequest p) s = .next (answered p f [0x1C#8] (taken p s)))
    ∧ ∀ (c : Instr) (k : Byte) (f : Frame) (s : State),
        (c, k) ∈ [(Instr.demand .stability, 0x21#8), (.mapWrite .stability, 0x52#8), (.mapFill .stability, 0x54#8),
          (.restart .stability, 0x7E#8)] →
        Ready .stability f s → f.kind = k →
        exec c s = .next (answered .stability f [0x10#8] (taken .stability s))

/-! ## Event flags -/

/-- The fourteen flag positions (R183); a raised flag is set, no other flag of the set changes, and the ALERT line is
asserted exactly while a set flag is unmasked; an event routed to both ports raises its flag in each set (R168, R170). -/
def Obligations.ARaisedFlagIsSetAndTheAlertLineFollows : Prop :=
  ([EventFlag.claimLapsed, .claimOrphaned, .holdRemoved, .linkFault, .frameDropped, .inverterClaimAdjusted,
      .bandInverted, .unplaced, .axleDown, .axleUp, .axleLinkFault, .commandSuperseded, .staleFeedback,
      .demandLapse].map EventFlag.position = [0, 1, 2, 3, 4, 5, 6, 7, 8, 9, 10, 11, 12, 13])
    ∧ (∀ (p : MasterId) (f : EventFlag) (s : State),
      raise p f s = s.setMaster p
        { s.master p with
          alert :=
            { (s.master p).alert with
              flags := (s.master p).alert.flags ||| (1#16 <<< f.position)
              alertLine := decide
                (((s.master p).alert.flags ||| (1#16 <<< f.position)) &&& ~~~(s.master p).alert.masks ≠ 0#16) } })
    ∧ (∀ (p : MasterId) (f g : EventFlag) (s : State),
        ((raise p f s).master p).alert.isSet g = (decide (g = f) || (s.master p).alert.isSet g))
    ∧ ∀ (f : EventFlag) (s : State) (p : MasterId), (raiseBoth f s).master p = (raise p f s).master p

/-- A set flag stays set until its port's STATUS, a break of its own link or a reset clears it (R168), whether as a
command or, in the model's form (log 6), as an event that falls inside an allocation. -/
def Obligations.FlagsStayUntilStatusBreakOrReset : Prop :=
  ∀ (c : Instr) (s t : State) (p : MasterId) (f : EventFlag), exec c s = .next t →
    (s.master p).alert.isSet f = true → c ≠ .status p → c ≠ .masterLinkBreak p → c ≠ .resetAssert →
    (∀ b1 b0, c ≠ .resetRelease b1 b0) →
    (∀ ms ∈ s.inside, .event (.request p) ∉ ms ∧ .event (.masterLinkBreak p) ∉ ms) →
    (t.master p).alert.isSet f = true

/-! ## The claim table: requests -/

/-- The source of each master link, and the source and claim axle of each axle's inverter (R1); CLAIM for a key with no
entry: with a master place free, the entry goes to the end of the table with the value that the envelope test stores, and
the reply carries that value (R6 to R9, R12, R13). -/
def Obligations.ClaimStoresANewEntryAtTheEnd : Prop :=
  (MasterId.demand.source = .demand ∧ MasterId.stability.source = .stability
    ∧ AxleId.front.source = .finv ∧ AxleId.rear.source = .rinv
    ∧ AxleId.front.claimAxle = .front ∧ AxleId.rear.claimAxle = .rear)
  ∧ ∀ (p : MasterId) (f : Frame) (s : State) (axle : ClaimAxle) (kind : ClaimKind) (v : Int) (clamped : Bool),
    Ready p f s → f.kind = 0x31#8 → s.alloc.state ≠ .unconfigured → ClaimInRange f axle kind →
    EnvelopeStores s.config axle kind (f.signedAt 2) v clamped →
    entriesUnder s.table p.source axle kind = [] → masterCount s.table < 12 →
    exec (.claim p) s = .next (answered p f ((if clamped then 0x01#8 else 0x00#8) :: signedBytes v)
      { taken p s with table := s.table ++ [claimStored p f axle kind v clamped] })

/-- CLAIM for a key with an entry: under REPLACE, and under TIGHTEN with a value at least as restrictive, the entry is
removed and the new one goes to the end; under TIGHTEN a looser value is refused with LOOSER (R11, R13). -/
def Obligations.ClaimReplacesTheEntryUnderItsKey : Prop :=
  ∀ (p : MasterId) (f : Frame) (s : State) (axle : ClaimAxle) (kind : ClaimKind) (v : Int) (clamped : Bool)
      (old : ClaimEntry) (policy : Replacement),
    Ready p f s → f.kind = 0x31#8 → s.alloc.state ≠ .unconfigured → ClaimInRange f axle kind →
    EnvelopeStores s.config axle kind (f.signedAt 2) v clamped →
    entriesUnder s.table p.source axle kind = [old] →
    policy = (match p with
      | .demand => s.config.policy.demandReplacement
      | .stability => s.config.policy.stabilityReplacement) →
    ((policy = .replace ∨ (if kind = .floor then old.value ≤ v else v ≤ old.value)) →
      exec (.claim p) s = .next (answered p f ((if clamped then 0x01#8 else 0x00#8) :: signedBytes v)
        { taken p s with
          table := entriesNotUnder s.table p.source axle kind ++ [claimStored p f axle kind v clamped] }))
    ∧ ((policy = .tighten ∧ ¬ (if kind = .floor then old.value ≤ v else v ≤ old.value)) →
      exec (.claim p) s = .next (answered p f [0x15#8] (taken p s)))

/-- The refusals of a CLAIM, in order: NOT_CONFIGURED, BAD_FIELD, OUTSIDE_ENVELOPE, and TABLE_FULL for a new key
(R6 to R9, R12). The axle and kind are read from their codes (R183), and SLEW on TOTAL is no key (R2). -/
def Obligations.ClaimRefusalsComeInOrder : Prop :=
  (∀ (a k : Byte) (axle : ClaimAxle) (kind : ClaimKind), readKey a k = some (axle, kind) ↔
      a.toNat = (match axle with | .front => 0 | .rear => 1 | .total => 2)
        ∧ k.toNat = (match kind with | .ceiling => 0 | .floor => 1 | .slew => 2)
        ∧ ¬ (kind = .slew ∧ axle = .total))
    ∧ ∀ (p : MasterId) (f : Frame) (s : State), Ready p f s → f.kind = 0x31#8 →
      (s.alloc.state = .unconfigured → exec (.claim p) s = .next (answered p f [0x11#8] (taken p s)))
      ∧ (s.alloc.state ≠ .unconfigured → (∀ axle kind, ¬ ClaimInRange f axle kind) →
          exec (.claim p) s = .next (answered p f [0x13#8] (taken p s)))
      ∧ (∀ axle kind, s.alloc.state ≠ .unconfigured → ClaimInRange f axle kind →
          EnvelopeRefuses s.config axle kind (f.signedAt 2) →
          exec (.claim p) s = .next (answered p f [0x14#8] (taken p s)))
      ∧ ∀ axle kind v clamped, s.alloc.state ≠ .unconfigured → ClaimInRange f axle kind →
          EnvelopeStores s.config axle kind (f.signedAt 2) v clamped →
          entriesUnder s.table p.source axle kind = [] → 12 ≤ masterCount s.table →
          exec (.claim p) s = .next (answered p f [0x16#8] (taken p s))

/-- RELEASE removes the requester's entry under its key or answers BAD_FIELD or NO_SUCH_CLAIM (R15); RELEASE ALL removes
the requester's entries and answers their number (R16); LIST CLAIMS reports the count, the start index and the at most
three entries from there, and changes no state (R165, R183). -/
def Obligations.EntriesAreReleasedAndListed : Prop :=
  (
    (∀ (p : MasterId) (f : Frame) (s : State), Ready p f s → f.kind = 0x32#8 →
        (readKey (f.byteAt 0) (f.byteAt 1) = none →
          exec (.release p) s = .next (answered p f [0x13#8] (taken p s)))
        ∧ ∀ axle kind, readKey (f.byteAt 0) (f.byteAt 1) = some (axle, kind) →
          (entriesUnder s.table p.source axle kind = [] →
            exec (.release p) s = .next (answered p f [0x17#8] (taken p s)))
          ∧ (entriesUnder s.table p.source axle kind ≠ [] →
            exec (.release p) s = .next (answered p f [0x00#8]
              { taken p s with table := entriesNotUnder s.table p.source axle kind })))
      ∧ ∀ (p : MasterId) (f : Frame) (s : State), Ready p f s → f.kind = 0x33#8 →
          exec (.releaseAll p) s = .next (answered p f
            [0x00#8, byteOf (s.table.countP fun e => e.source = p.source)]
            { taken p s with table := s.table.filter fun e => !(e.source = p.source) }))
  ∧ ∀ (p : MasterId) (f : Frame) (s : State), Ready p f s → f.kind = 0x62#8 → s.table.length ≤ 16 →
      exec (.listClaims p) s = .next (answered p f
        ([0x00#8, byteOf s.table.length, f.byteAt 0]
          ++ (((s.table.zipIdx.drop (f.natAt 0)).take 3).flatMap fun (e, i) =>
            [byteOf (i + 16 * e.clamped.toNat + 32 * e.orphaned.toNat + 64 * e.governing.toNat),
              byteOf ((match e.source with | .demand => 0 | .stability => 1 | .finv => 2 | .rinv => 3)
                + 4 * (match e.axle with | .front => 0 | .rear => 1 | .total => 2)
                + 16 * (match e.kind with | .ceiling => 0 | .floor => 1 | .slew => 2))]
              ++ signedBytes e.value
              ++ [byteOf (match e.lifetime with | none => 0 | some n => n), e.tag]))
        (taken p s))

/-- Every step keeps the claim table sound: legal keys, one entry for each, values within the envelope, legal lifetimes,
at most 12 master entries, a configuration within its ranges (R1, R2, R4, R10, R152 to R156); and a sound table holds at
most 16 entries (R4). -/
def Obligations.EveryStepKeepsTheClaimTableSound : Prop :=
  (∀ s t : State, s.tableSound = true → step s = .next t → t.tableSound = true)
    ∧ ∀ s : State, s.tableSound = true → s.table.length ≤ 16

/-! ## The claim table: the act that serves an allocation -/

/-- The envelope's edges of each axle and of the total (R9, R26, R152). The effective ceiling is the smallest of the
upper edge and the CEILING values of its axle, the floor the largest of the lower edge and the FLOOR values, the slew
the smallest of the MOTION slew and the SLEW values (R26, R29). An inverted band is used as the single value nearest
zero of the interval from its ceiling to its floor; any other band as computed (R28). -/
def Obligations.EffectiveLimitsAreTheTightestAndInvertedBandsPinned : Prop :=
  (∀ e : Envelope,
    (upperEdge e .front = e.frontUpper ∧ lowerEdge e .front = e.frontLower)
    ∧ (upperEdge e .rear = e.rearUpper ∧ lowerEdge e .rear = e.rearLower)
    ∧ (upperEdge e .total = e.totalUpper ∧ lowerEdge e .total = e.totalLower))
  ∧ (
    ∀ (t : List ClaimEntry) (c : ConfigStore),
      (∀ axle : ClaimAxle,
        ((bandOf t c axle).ceiling ≤ upperEdge c.envelope axle
          ∧ (∀ e ∈ t, e.axle = axle → e.kind = .ceiling → (bandOf t c axle).ceiling ≤ e.value)
          ∧ ((bandOf t c axle).ceiling = upperEdge c.envelope axle
            ∨ ∃ e ∈ t, e.axle = axle ∧ e.kind = .ceiling ∧ (bandOf t c axle).ceiling = e.value))
        ∧ (lowerEdge c.envelope axle ≤ (bandOf t c axle).floor
          ∧ (∀ e ∈ t, e.axle = axle → e.kind = .floor → e.value ≤ (bandOf t c axle).floor)
          ∧ ((bandOf t c axle).floor = lowerEdge c.envelope axle
            ∨ ∃ e ∈ t, e.axle = axle ∧ e.kind = .floor ∧ (bandOf t c axle).floor = e.value)))
      ∧ ∀ a : AxleId, ∀ slew motion : Int,
          slew = (match a with | .front => (bandRecord t c).frontSlew | .rear => (bandRecord t c).rearSlew) →
          motion = (match a with | .front => (c.motion.frontSlew : Int) | .rear => (c.motion.rearSlew : Int)) →
          slew ≤ motion ∧ (∀ e ∈ t, e.axle = a.claimAxle → e.kind = .slew → slew ≤ e.value)
            ∧ (slew = motion ∨ ∃ e ∈ t, e.axle = a.claimAxle ∧ e.kind = .slew ∧ slew = e.value))
  ∧ ∀ b : Band,
    (b.floor ≤ b.ceiling → b.used = b)
    ∧ (b.ceiling < b.floor →
        b.used.ceiling = b.used.floor ∧ b.ceiling ≤ b.used.ceiling ∧ b.used.ceiling ≤ b.floor
          ∧ ∀ w, b.ceiling ≤ w → w ≤ b.floor → b.used.ceiling.natAbs ≤ w.natAbs)

/-- An entry governs when its value wins its edge or slew, the base value does not tie with it and no entry in front of
it has the same value; every other mark is cleared and no other field changes (R27, R29). -/
def Obligations.TheFrontmostTightestEntryGoverns : Prop :=
  ∀ (t : List ClaimEntry) (c : ConfigStore), (markGoverning t c).length = t.length
    ∧ ∀ (i : Nat) (e : ClaimEntry), t[i]? = some e →
      ∃ g : Bool, (markGoverning t c)[i]? = some { e with governing := g }
        ∧ (g = true ↔
            (e.value ≠ baseValue c e.axle e.kind
              ∧ e.value = effective t e.axle e.kind (baseValue c e.axle e.kind)
              ∧ ∀ j d, j < i → t[j]? = some d → d.axle = e.axle → d.kind = e.kind → d.value ≠ e.value))

/-- The claim table's part in an allocation inside which nothing falls (log 6): marks set, lifetimes reduced by one,
entries that reach zero removed, the FRONT and REAR bands kept, and CLAIM_LAPSED set in the port of each removed entry's
source (R14, R20, R21, R27, R30). -/
def Obligations.AnAllocationAgesTheClaims : Prop :=
  ∀ (inp : AllocInput) (s : State),
    (allocate inp s).table = ((markGoverning s.table s.config).filterMap fun e =>
        match e.lifetime with
        | none => some e
        | some n => if 2 ≤ n then some { e with lifetime := some (n - 1) } else none)
      ∧ (allocate inp s).lastBands = some ⟨bandOf s.table s.config .front, bandOf s.table s.config .rear⟩
      ∧ ∀ p : MasterId, ((allocate inp s).master p).alert.isSet .claimLapsed
          = ((s.master p).alert.isSet .claimLapsed
            || s.table.any fun e => e.source = p.source && e.lifetime.any fun n => n ≤ 1)

/-! ## Shares, the map and the hold stack -/

/-- The live share of an allocation inside which nothing falls (log 6): moved toward the governing share by at most the
share slew when both axles are available, forced with one, kept with neither; the governing share is the top record's,
or the map cell's when the stack is empty (R42 to R45). -/
def Obligations.AnAllocationMovesOrForcesTheLiveShare : Prop :=
  ∀ (inp : AllocInput) (s : State) (front rear : Bool) (g : Nat),
    (front = true ↔ s.front.state = .online ∨ s.front.state = .suspect) →
    (rear = true ↔ s.rear.state = .online ∨ s.rear.state = .suspect) →
    g = (match s.holds.getLast? with
      | some h => h.share
      | none => readCell s.map (bandIndex s.config.loadBands inp.load)
          (bandIndex s.config.speedBands (inp.speed.natAbs / 10))) →
    (allocate inp s).lastGoverning = g
      ∧ (front = true → rear = true →
          (allocate inp s).forced = .none
          ∧ (s.liveShare + s.config.motion.shareSlew < g →
              (allocate inp s).liveShare = s.liveShare + s.config.motion.shareSlew)
          ∧ (g + s.config.motion.shareSlew < s.liveShare →
              (allocate inp s).liveShare = s.liveShare - s.config.motion.shareSlew)
          ∧ (g ≤ s.liveShare + s.config.motion.shareSlew → s.liveShare ≤ g + s.config.motion.shareSlew →
              (allocate inp s).liveShare = g))
      ∧ (front = true → rear = false →
          (allocate inp s).liveShare = 1000 ∧ (allocate inp s).forced = .front)
      ∧ (front = false → rear = true → (allocate inp s).liveShare = 0 ∧ (allocate inp s).forced = .rear)
      ∧ (front = false → rear = false →
          (allocate inp s).liveShare = s.liveShare ∧ (allocate inp s).forced = s.forced)

/-- The load band (R34) and the speed band (R35) of an allocation, and the cell they select. -/
def Obligations.LoadAndSpeedBandsCountTheBreakpointsNotAbove : Prop :=
  (∀ (s : State) (load : Nat) (speed : Int), mapShare s load speed
      = readCell s.map ((s.config.loadBands.filter fun b => b ≤ load).length)
          ((s.config.speedBands.filter fun b => b ≤ speed.natAbs / 10).length))
    ∧ (∀ (s : State) (load : Nat) (speed : Int), mapShare s load (-speed) = mapShare s load speed)
    ∧ (∀ bands : List Nat, bandsValid 99 bands = true →
        bandIndex bands 0 = 0 ∧ bandIndex bands 100 = bands.length)
    ∧ (∀ (below above : List Nat) (b : Nat), (∀ x ∈ below, x < b) → (∀ x ∈ above, b < x) →
        bandIndex (below ++ b :: above) b = below.length + 1)
    ∧ (∀ load : Nat, load ≤ 100 →
        bandIndex [45, 55] load = (if load ≤ 44 then 0 else if load ≤ 54 then 1 else 2))
    ∧ (∀ (bands : List Nat) (speed : Int), bandsValid 250 bands = true → -2000 ≤ speed → speed ≤ 2000 →
        wholeKmh speed ≤ 200 ∧ bandIndex bands (wholeKmh 0) = 0
        ∧ bandIndex bands (wholeKmh speed) = bandIndex (bands.filter fun b => b ≤ 200) (wholeKmh speed))
    ∧ ∀ speed : Int, -2000 ≤ speed → speed ≤ 2000 →
        bandIndex [20, 60] (wholeKmh speed)
          = (if -199 ≤ speed ∧ speed ≤ 199 then 0 else if -599 ≤ speed ∧ speed ≤ 599 then 1 else 2)

/-- MAP WRITE: a request that passes its checks writes the cells it names and no other; any other request is refused
with BAD_FIELD and changes no cell (R36). -/
def Obligations.MapWriteWritesTheCellsItNames : Prop :=
  ∀ (f : Frame) (s : State) (row column count : Nat), Ready .demand f s → f.kind = 0x52#8 →
    row = f.natAt 0 → column = f.natAt 1 → count = f.natAt 2 →
    ((row ≤ 7 ∧ column ≤ 7 ∧ 1 ≤ count ∧ count ≤ 8 ∧ column + count ≤ 8 ∧ f.payload.length = 3 + 2 * count
        ∧ ∀ i, i < count → f.unsignedAt (3 + 2 * i) ≤ 1000) →
      ∃ m, exec (.mapWrite .demand) s = .next (answered .demand f [0x00#8] { taken .demand s with map := m })
        ∧ ∀ r c, r < 8 → c < 8 → readCell m r c
            = (if r = row ∧ column ≤ c ∧ c < column + count then f.unsignedAt (3 + 2 * (c - column))
               else readCell s.map r c))
    ∧ (¬ (row ≤ 7 ∧ column ≤ 7 ∧ 1 ≤ count ∧ count ≤ 8 ∧ column + count ≤ 8 ∧ f.payload.length = 3 + 2 * count
        ∧ ∀ i, i < count → f.unsignedAt (3 + 2 * i) ≤ 1000) →
      exec (.mapWrite .demand) s = .next (answered .demand f [0x13#8] (taken .demand s)))

/-- MAP FILL (R37). -/
def Obligations.MapFillSetsEveryCell : Prop :=
  ∀ (f : Frame) (s : State), Ready .demand f s → f.kind = 0x54#8 →
    (f.unsignedAt 0 ≤ 1000 →
      ∃ m, exec (.mapFill .demand) s = .next (answered .demand f [0x00#8] { taken .demand s with map := m })
        ∧ (∀ r c, r < 8 → c < 8 → readCell m r c = f.unsignedAt 0)
        ∧ (f.unsignedAt 0 = 500 → m = State.powerOn.map))
    ∧ (1000 < f.unsignedAt 0 →
      exec (.mapFill .demand) s = .next (answered .demand f [0x13#8] (taken .demand s)))

/-- MAP READ (R38). -/
def Obligations.MapReadReportsTheRow : Prop :=
  ∀ (p : MasterId) (f : Frame) (s : State), Ready p f s → f.kind = 0x53#8 →
    (f.natAt 0 ≤ 7 →
      exec (.mapRead p) s = .next (answered p f
        ([0x00#8, f.byteAt 0] ++ unsignedBytes (readCell s.map (f.natAt 0) 0)
          ++ unsignedBytes (readCell s.map (f.natAt 0) 1) ++ unsignedBytes (readCell s.map (f.natAt 0) 2)
          ++ unsignedBytes (readCell s.map (f.natAt 0) 3) ++ unsignedBytes (readCell s.map (f.natAt 0) 4)
          ++ unsignedBytes (readCell s.map (f.natAt 0) 5) ++ unsignedBytes (readCell s.map (f.natAt 0) 6)
          ++ unsignedBytes (readCell s.map (f.natAt 0) 7))
        (taken p s)))
    ∧ (7 < f.natAt 0 → exec (.mapRead p) s = .next (answered p f [0x13#8] (taken p s)))

/-- The holder of each port's records (R51, R55). HOLD pushes a record with the given share, or with the live share
captured, on top of the stack; its refusals are NOT_CONFIGURED, BAD_FIELD and STACK_FULL, in order (R54, R55). RESUME pops
the top record of the requesting port's own, and otherwise answers STACK_EMPTY or NOT_HOLDER (R57). -/
def Obligations.HoldPushesAndResumePopsTheTopRecord : Prop :=
  (MasterId.demand.holder = .demandPort ∧ MasterId.stability.holder = .stabilityPort)
  ∧ (
    ∀ (p : MasterId) (f : Frame) (s : State), Ready p f s → f.kind = 0x41#8 →
      (s.alloc.state = .unconfigured → exec (.hold p) s = .next (answered p f [0x11#8] (taken p s)))
      ∧ (s.alloc.state ≠ .unconfigured →
          (f.byteAt 0 ≠ 0#8 ∧ ¬ (f.byteAt 0 = 1#8 ∧ f.unsignedAt 1 ≤ 1000) →
            exec (.hold p) s = .next (answered p f [0x13#8] (taken p s)))
          ∧ (∀ (share : Nat) (captured : Bool),
              (f.byteAt 0 = 1#8 ∧ f.unsignedAt 1 ≤ 1000 ∧ share = f.unsignedAt 1 ∧ captured = false)
                ∨ (f.byteAt 0 = 0#8 ∧ share = s.liveShare ∧ captured = true) →
              (4 ≤ (s.holds.countP fun h => h.origin = .master) →
                exec (.hold p) s = .next (answered p f [0x18#8] (taken p s)))
              ∧ ((s.holds.countP fun h => h.origin = .master) < 4 →
                exec (.hold p) s = .next (answered p f
                  ([0x00#8, byteOf (s.holds.length + 1)] ++ unsignedBytes share)
                  { taken p s with
                    holds := s.holds ++ [⟨p.holder, .master, share, captured, f.byteAt 3⟩] })))))
  ∧ ∀ (p : MasterId) (f : Frame) (s : State), Ready p f s → f.kind = 0x42#8 →
    (s.holds = [] → exec (.resume p) s = .next (answered p f [0x19#8] (taken p s)))
    ∧ ∀ (below : List HoldRecord) (top : HoldRecord), s.holds = below ++ [top] →
      (top.origin = .lapse ∨ top.holder ≠ p.holder →
        exec (.resume p) s = .next (answered p f [0x1A#8] (taken p s)))
      ∧ (top.origin = .master ∧ top.holder = p.holder →
        exec (.resume p) s = .next (answered p f
          ([0x00#8, byteOf below.length] ++ unsignedBytes top.share ++ [top.tag])
          { taken p s with holds := below }))

/-- LIST HOLDS (R67). -/
def Obligations.ListHoldsReportsTheStackBottomFirst : Prop :=
  ∀ (p : MasterId) (f : Frame) (s : State), Ready p f s → f.kind = 0x63#8 →
    exec (.listHolds p) s = .next (answered p f
      ([0x00#8, byteOf s.holds.length] ++ s.holds.flatMap fun h =>
        [byteOf ((match h.holder with | .demandPort => 0 | .stabilityPort => 1 | .allocator => 2)
          + 4 * (match h.origin with | .master => 0 | .lapse => 1) + 8 * h.captured.toNat)]
          ++ unsignedBytes h.share ++ [h.tag])
      (taken p s))

/-- Every step keeps the hold stack, the shares and the allocator's timers sound: holder and origin agree, at most four
MASTER records, a LAPSE record exactly while LAPSED, every share from 0 to 1000, the timers and the settled marker as the
allocator state says (R32, R40, R51, R52, R62, R129, R130). -/
def Obligations.EveryStepKeepsHoldsSharesAndTimersSound : Prop :=
  ∀ s t : State, s.stackSound = true → s.sharesSound = true → s.alloc.sound = true → step s = .next t →
    t.stackSound = true ∧ t.sharesSound = true ∧ t.alloc.sound = true

/-! ## Allocations -/

/-- The split of the clipped total (R78): by the live share, truncated toward zero, the rest to the rear; whole to a
single available axle; zero to both when neither is available. -/
def Obligations.TheSplitSumsToTheClippedTotal : Prop :=
  ∀ (total : Int) (share : Nat),
    (frontSplit .both total share + rearSplit .both total share = total)
    ∧ (0 ≤ total → 1000 * frontSplit .both total share ≤ total * share
        ∧ total * share < 1000 * frontSplit .both total share + 1000)
    ∧ (total ≤ 0 → total * share ≤ 1000 * frontSplit .both total share
        ∧ 1000 * frontSplit .both total share - 1000 < total * share)
    ∧ (frontSplit .both total 1000 = total ∧ frontSplit .both total 0 = 0)
    ∧ (frontSplit .frontOnly total share = total ∧ rearSplit .frontOnly total share = 0)
    ∧ (frontSplit .rearOnly total share = 0 ∧ rearSplit .rearOnly total share = total)
    ∧ (frontSplit .neither total share = 0 ∧ rearSplit .neither total share = 0)

/-- Stage 5 (R79 to R81, R86): the five passes with both axles available and their marks, for all targets; so the targets
end within their bands, targets within their bands stay, and an excess moves to the other axle under SPILL and is dropped
under SHED; with one axle available its target is clamped and nothing moves. -/
def Obligations.TargetsArePlacedWithinTheBands : Prop :=
  ∀ (q : Policy) (fb rb : Band) (f0 r0 : Int),
    (∀ (moved : Int → Int) (f1 r1 r2 f2 : Int),
      (∀ x, moved x = (if 0 < x then (if q.ceilingExcess = .spill then x else 0)
        else if x < 0 then (if q.floorExcess = .spill then x else 0) else 0)) →
      f1 = max fb.used.floor (min fb.used.ceiling f0) →
      r1 = r0 + moved (f0 - f1) →
      r2 = max rb.used.floor (min rb.used.ceiling r1) →
      f2 = f1 + moved (r1 - r2) →
      place .both q fb rb f0 r0
        = { front := max fb.used.floor (min fb.used.ceiling f2)
            rear := r2
            frontAbove := decide (fb.used.ceiling < f0 ∨ fb.used.ceiling < f2)
            frontBelow := decide (f0 < fb.used.floor ∨ f2 < fb.used.floor)
            rearAbove := decide (rb.used.ceiling < r1)
            rearBelow := decide (r1 < rb.used.floor) })
    ∧ ((fb.used.floor ≤ (place .both q fb rb f0 r0).front ∧ (place .both q fb rb f0 r0).front ≤ fb.used.ceiling)
      ∧ (rb.used.floor ≤ (place .both q fb rb f0 r0).rear ∧ (place .both q fb rb f0 r0).rear ≤ rb.used.ceiling))
    ∧ (fb.used.floor ≤ f0 → f0 ≤ fb.used.ceiling → rb.used.floor ≤ r0 → r0 ≤ rb.used.ceiling →
        place .both q fb rb f0 r0 = ⟨f0, r0, false, false, false, false⟩)
    ∧ (fb.used.ceiling < f0 → rb.used.floor ≤ r0 → r0 ≤ rb.used.ceiling →
        (q.ceilingExcess = .spill → r0 + (f0 - fb.used.ceiling) ≤ rb.used.ceiling →
          place .both q fb rb f0 r0
            = ⟨fb.used.ceiling, r0 + (f0 - fb.used.ceiling), true, false, false, false⟩)
        ∧ (q.ceilingExcess = .shed →
          place .both q fb rb f0 r0 = ⟨fb.used.ceiling, r0, true, false, false, false⟩))
    ∧ (f0 < fb.used.floor → rb.used.floor ≤ r0 → r0 ≤ rb.used.ceiling →
        (q.floorExcess = .spill → rb.used.floor ≤ r0 + (f0 - fb.used.floor) →
          place .both q fb rb f0 r0 = ⟨fb.used.floor, r0 + (f0 - fb.used.floor), false, true, false, false⟩)
        ∧ (q.floorExcess = .shed →
          place .both q fb rb f0 r0 = ⟨fb.used.floor, r0, false, true, false, false⟩))
    ∧ (fb.used.floor ≤ f0 → f0 ≤ fb.used.ceiling → rb.used.ceiling < r0 →
        (q.ceilingExcess = .spill → f0 + (r0 - rb.used.ceiling) ≤ fb.used.ceiling →
          place .both q fb rb f0 r0
            = ⟨f0 + (r0 - rb.used.ceiling), rb.used.ceiling, false, false, true, false⟩)
        ∧ (q.ceilingExcess = .shed →
          place .both q fb rb f0 r0 = ⟨f0, rb.used.ceiling, false, false, true, false⟩))
    ∧ (fb.used.floor ≤ f0 → f0 ≤ fb.used.ceiling → r0 < rb.used.floor →
        (q.floorExcess = .spill → fb.used.floor ≤ f0 + (r0 - rb.used.floor) →
          place .both q fb rb f0 r0 = ⟨f0 + (r0 - rb.used.floor), rb.used.floor, false, false, false, true⟩)
        ∧ (q.floorExcess = .shed →
          place .both q fb rb f0 r0 = ⟨f0, rb.used.floor, false, false, false, true⟩))
    ∧ (place .frontOnly q fb rb f0 r0
        = ⟨max fb.used.floor (min fb.used.ceiling f0), 0, decide (fb.used.ceiling < f0), decide (f0 < fb.used.floor),
            false, false⟩
      ∧ place .rearOnly q fb rb f0 r0
        = ⟨0, max rb.used.floor (min rb.used.ceiling r0), false, false, decide (rb.used.ceiling < r0),
            decide (r0 < rb.used.floor)⟩
      ∧ place .neither q fb rb f0 r0 = ⟨0, 0, false, false, false, false⟩)

/-- Stage 7 (R83 to R85): a command lies within its band; from outside the band it enters it at once, from inside it
moves toward its target by at most the slew; an axle that is not available is commanded 0. -/
def Obligations.CommandsEnterTheBandAndFollowTheSlew : Prop :=
  ∀ (b : Band) (p t slew : Int), 0 ≤ slew →
    (b.used.floor ≤ command true b p t slew ∧ command true b p t slew ≤ b.used.ceiling)
    ∧ (b.used.floor ≤ t → t ≤ b.used.ceiling →
        (b.used.ceiling < p → command true b p t slew = max t (min b.used.ceiling (p - slew)))
        ∧ (p < b.used.floor → command true b p t slew = min t (max b.used.floor (p + slew)))
        ∧ (b.used.floor ≤ p → p ≤ b.used.ceiling →
            (p + slew < t → command true b p t slew = p + slew)
            ∧ (t < p - slew → command true b p t slew = p - slew)
            ∧ (t ≤ p + slew → p - slew ≤ t → command true b p t slew = t)))
    ∧ command false b p t slew = 0

/-- What an allocation inside which nothing falls (log 6) forms (R74, R75, R78 to R90): the clipped total, the unplaced
torque, the result record, the two limit codes in the order of their table, and the two COMMAND records, all numbered
with the advanced counter. -/
def Obligations.AnAllocationFormsItsRecords : Prop :=
  ∀ (inp : AllocInput) (s : State) (al : Allocation) (bands : BandRecord) (av : Availability) (pl : Placement)
      (fa ra : Bool) (fc rc : Int),
    al = allocationOf inp s → bands = bandRecord s.table s.config →
    (fa = true ↔ s.front.state = .online ∨ s.front.state = .suspect) →
    (ra = true ↔ s.rear.state = .online ∨ s.rear.state = .suspect) →
    av = (if fa then (if ra then .both else .frontOnly) else (if ra then .rearOnly else .neither)) →
    pl = place av s.config.policy bands.front bands.rear (frontSplit av al.clipped (allocate inp s).liveShare)
      (rearSplit av al.clipped (allocate inp s).liveShare) →
    fc = command fa bands.front s.front.lastCommanded pl.front bands.frontSlew →
    rc = command ra bands.rear s.rear.lastCommanded pl.rear bands.rearSlew →
    al.clipped = max bands.total.used.floor (min bands.total.used.ceiling inp.requested)
    ∧ al.clipped = pl.front + pl.rear + al.unplaced
    ∧ al.frontCommand = ⟨s.alloc.counter + 1#8, if fa then .drive else .standby, fc, bands.front.used.ceiling,
        bands.front.used.floor⟩
    ∧ al.rearCommand = ⟨s.alloc.counter + 1#8, if ra then .drive else .standby, rc, bands.rear.used.ceiling,
        bands.rear.used.floor⟩
    ∧ al.result =
      { code := if al.clipped = inp.requested then .accepted else .clamped
        sequence := s.alloc.counter + 1#8
        demandSequence := inp.demandSequence
        state := inp.state
        unplaced := max (-32767) (min 32767 al.unplaced)
        liveShare := (allocate inp s).liveShare
        front :=
          { command := fc
            limit :=
              if fa = false then .standby else if bands.front.ceiling < bands.front.floor then .inverted
              else if fc ≠ pl.front then .slew else if pl.frontAbove then .ceiling
              else if pl.frontBelow then .floor else .free
            state := s.front.state
            delivered := s.front.lastDelivered
            speed := s.front.lastSpeed }
        rear :=
          { command := rc
            limit :=
              if ra = false then .standby else if bands.rear.ceiling < bands.rear.floor then .inverted
              else if rc ≠ pl.rear then .slew else if pl.rearAbove then .ceiling
              else if pl.rearBelow then .floor else .free
            state := s.rear.state
            delivered := s.rear.lastDelivered
            speed := s.rear.lastSpeed } }

/-- The layouts in which the records travel (R101, R162, R166, R176, R183): two-byte fields high byte first, signed ones in
two's complement; the result and limit codes; the 8 bytes of a COMMAND frame of kind 11h; the 23 bytes of an allocation
result, and the mirror frame of kind A0h. -/
def Obligations.RecordsTravelInTheirLayouts : Prop :=
  ((∀ n : Nat, (byteOf n).toNat = n % 256)
    ∧ (∀ n : Nat, ∃ hi lo : Byte, unsignedBytes n = [hi, lo] ∧ 256 * hi.toNat + lo.toNat = n % 65536)
    ∧ (∀ v : Int, ∃ hi lo : Byte, signedBytes v = [hi, lo] ∧ (256 * hi.toNat + lo.toNat : Int) = v % 65536)
    ∧ ∀ h : Half, ∃ hi lo : Byte, halfBytes h = [hi, lo] ∧ 256 * hi.toNat + lo.toNat = h.toNat)
  ∧ ([ResultCode.accepted, .clamped, .notPermitted, .notConfigured, .wrongState, .badField, .outsideEnvelope, .looser,
        .tableFull, .noSuchClaim, .stackFull, .stackEmpty, .notHolder, .claimsPresent, .unknownRequest].map ResultCode.code
      = [0x00#8, 0x01#8, 0x10#8, 0x11#8, 0x12#8, 0x13#8, 0x14#8, 0x15#8, 0x16#8, 0x17#8, 0x18#8, 0x19#8, 0x1A#8,
        0x1B#8, 0x1C#8]
    ∧ [LimitCode.free, .slew, .ceiling, .floor, .inverted, .standby].map LimitCode.code = [0, 1, 2, 3, 4, 5]
    ∧ [AllocState.unconfigured, .ready, .running, .lapsed].map AllocState.code = [0, 1, 2, 3]
    ∧ [AxleState.offline, .rejoining, .online, .suspect].map AxleState.code = [0, 1, 2, 3])
  ∧ (∀ r : CommandRecord, r.bytes.length = 8
    ∧ r.frame = ⟨0x11#8, [r.sequence, if r.mode = .drive then 1#8 else 0#8]
        ++ signedBytes r.torque ++ signedBytes r.ceiling ++ signedBytes r.floor⟩)
  ∧ ∀ r : ResultRecord, r.bytes.length = 23 ∧ r.mirrorFrame = ⟨0xA0#8, r.bytes⟩
    ∧ r.bytes = [r.code.code, r.sequence, r.demandSequence, byteOf r.state.code]
        ++ signedBytes r.front.command ++ signedBytes r.rear.command ++ signedBytes r.unplaced
        ++ unsignedBytes r.liveShare
        ++ [byteOf r.front.limit.code, byteOf r.rear.limit.code, byteOf (r.front.state.code + 16 * r.rear.state.code)]
        ++ signedBytes r.front.delivered ++ signedBytes r.rear.delivered
        ++ signedBytes r.front.speed ++ signedBytes r.rear.speed

/-- The hand-off of COMMAND records by an allocation inside which nothing falls (log 6; R92, R99 to R101, R103): the
last commanded torque follows the record; on an UP link an idle transmitter sends it at once and a busy one leaves it in
the slot; on another link it is discarded. A DRIVE record for an axle that is not available is changed to STANDBY 0. -/
def Obligations.CommandRecordsReachTheAxlePorts : Prop :=
  (∀ (inp : AllocInput) (s : State) (a : AxleId) (r : CommandRecord),
    r = (match a with
      | .front => (allocationOf inp s).frontCommand
      | .rear => (allocationOf inp s).rearCommand) →
    ((s.axle a).link = .up → (s.axle a).tx = .idle →
      (allocate inp s).axle a
        = { s.axle a with lastCommanded := r.torque, tx := .sending r false, slot := none })
    ∧ ((s.axle a).link = .up → (s.axle a).tx ≠ .idle →
      (allocate inp s).axle a = { s.axle a with lastCommanded := r.torque, slot := some r })
    ∧ ((s.axle a).link ≠ .up → (allocate inp s).axle a = { s.axle a with lastCommanded := r.torque }))
  ∧ ∀ (u : AxleUnit) (r : CommandRecord), u.state = .offline ∨ u.state = .rejoining → r.mode = .drive →
      u.handoff r = u.handoff { r with mode := .standby, torque := 0 }

/-- The flags of an allocation inside which nothing falls (log 6): CLAIM_LAPSED in the port of a lapsed entry's source;
BAND_INVERTED, UNPLACED and COMMAND_SUPERSEDED in both ports; no other (R21, R82, R87, R100, R168). Masks, mirror
enables and last fault kinds stand. -/
def Obligations.AnAllocationRaisesItsFlags : Prop :=
  ∀ (inp : AllocInput) (s : State) (p : MasterId) (g : EventFlag),
    ((allocate inp s).master p).alert.isSet g
        = ((s.master p).alert.isSet g
          || (decide (g = .claimLapsed) && s.table.any fun e => e.source = p.source && e.lifetime.any fun n => n ≤ 1)
          || (decide (g = .bandInverted)
              && [ClaimAxle.front, .rear, .total].any fun x =>
                (bandOf s.table s.config x).ceiling < (bandOf s.table s.config x).floor)
          || (decide (g = .unplaced) && decide ((allocationOf inp s).unplaced ≠ 0))
          || (decide (g = .commandSuperseded)
              && [s.front, s.rear].any fun u => u.link = .up && u.slot.isSome))
      ∧ ((allocate inp s).master p).alert.masks = (s.master p).alert.masks
      ∧ ((allocate inp s).master p).alert.mirrorEnable = (s.master p).alert.mirrorEnable
      ∧ ((allocate inp s).master p).alert.lastFault = (s.master p).alert.lastFault

/-- The rest of a DEMAND's allocation inside which nothing falls (log 6): the counter advances modulo 256, the clipped
total and the result record are kept, the result record goes to the mirror slot of each UP port with mirror enabled, and
the map, the hold stack, the configuration, the links, the receive queues, the reply queues, HOLDOFF and the
waiting-for-room markers stand (R70, R74, R94, R166). The stability port's idle transmitter takes what waits at once;
that the demand port's leaves the record in the slot, because its arbiter runs after the reply, is the model's reading
(log 5). -/
def Obligations.AnAllocationMirrorsItsResultAndKeepsTheRest : Prop :=
  ∀ (inp : AllocInput) (s : State) (slot : MasterPort → Option ResultRecord),
    (∀ m, slot m = (if m.alert.mirrorEnable = true ∧ m.link = .up then some (allocationOf inp s).result
      else m.mirrorSlot)) →
    (allocate inp s).alloc = { s.alloc with
        counter := s.alloc.counter + 1#8
        lastClipped := (allocationOf inp s).clipped
        lastResult := some (allocationOf inp s).result }
    ∧ ((allocate inp s).map = s.map ∧ (allocate inp s).holds = s.holds ∧ (allocate inp s).config = s.config
      ∧ (allocate inp s).pending = s.pending ∧ (allocate inp s).inside = s.inside
      ∧ (allocate inp s).resetAsserted = s.resetAsserted
      ∧ (allocate inp s).bitRate = s.bitRate)
    ∧ (∀ p : MasterId, ((allocate inp s).master p).link = (s.master p).link
      ∧ ((allocate inp s).master p).receiver = (s.master p).receiver
      ∧ ((allocate inp s).master p).rxQueue = (s.master p).rxQueue)
    ∧ ((allocate inp s).demandPort.replyQueue = s.demandPort.replyQueue
      ∧ (allocate inp s).demandPort.tx = s.demandPort.tx
      ∧ (allocate inp s).demandPort.mirrorSlot = slot s.demandPort
      ∧ (allocate inp s).demandPort.holdoff = s.demandPort.holdoff
      ∧ (allocate inp s).demandPort.waitingForRoom = s.demandPort.waitingForRoom)
    ∧ (s.stabilityPort.tx ≠ .idle →
        (allocate inp s).stabilityPort.replyQueue = s.stabilityPort.replyQueue
        ∧ (allocate inp s).stabilityPort.tx = s.stabilityPort.tx
        ∧ (allocate inp s).stabilityPort.mirrorSlot = slot s.stabilityPort
        ∧ (allocate inp s).stabilityPort.holdoff = s.stabilityPort.holdoff
        ∧ (allocate inp s).stabilityPort.waitingForRoom = s.stabilityPort.waitingForRoom)
    ∧ (s.stabilityPort.tx = .idle → s.stabilityPort.replyQueue = [] →
        (allocate inp s).stabilityPort.replyQueue = []
        ∧ (allocate inp s).stabilityPort.mirrorSlot = none
        ∧ (allocate inp s).stabilityPort.tx = (match slot s.stabilityPort with
          | some r => .sending ⟨0xA0#8, r.bytes⟩ false
          | none => .idle)
        ∧ (allocate inp s).stabilityPort.holdoff = s.stabilityPort.holdoff
        ∧ (allocate inp s).stabilityPort.waitingForRoom = s.stabilityPort.waitingForRoom)
    ∧ ∀ r rest, s.stabilityPort.tx = .idle → s.stabilityPort.replyQueue = r :: rest →
        (allocate inp s).stabilityPort.replyQueue = rest
        ∧ (allocate inp s).stabilityPort.tx = .sending r false
        ∧ (allocate inp s).stabilityPort.mirrorSlot = slot s.stabilityPort
        ∧ (allocate inp s).stabilityPort.holdoff = decide (4 ≤ s.stabilityPort.rxQueue.length)
        ∧ (allocate inp s).stabilityPort.waitingForRoom
          = (!s.stabilityPort.rxQueue.isEmpty && decide (4 ≤ rest.length))

/-- Whatever falls inside it, an allocation takes each of its parts exactly once (R69): one claim-table act, one read of
each axle, one act of share control, one writing of its records and one hand-over of each, one advance of the counter; and
what it keeps as its result is what it formed. Each part acts on the state as it stands at its own moment (R75 to R77, R92,
R94, R96), a part already taken or not yet due does nothing, and once everything has been read no part and no event changes
what the allocation forms (R95). A moment inside is a part or an event, but for the hand-over of the result record to the
port that waits for its reply, which arrives with the reply (R167). The parts as moments are the model's form (log 6). -/
def Obligations.AnAllocationTakesEachPartOnce : Prop :=
  (∀ (replying : Option MasterId) (inp : AllocInput) (s t : State) (w : Allocating),
      (w, t) = allocating replying inp s →
      w.bands.isSome ∧ w.front.isSome ∧ w.rear.isSome ∧ w.live.isSome
        ∧ w.done.Perm [.record, .handOver .front, .handOver .rear, .mirror .demand, .mirror .stability]
        ∧ w.sequence = s.alloc.counter + 1#8 ∧ t.alloc.counter = s.alloc.counter + 1#8
        ∧ allocateWith replying inp s = (w.formed t, t)
        ∧ t.alloc.lastClipped = (w.formed t).clipped ∧ t.alloc.lastResult = some (w.formed t).result)
  ∧ ∀ (w : Allocating) (t : State),
    ((w.bands = none → takePart .claimTable w t
          = ({ w with bands := some (bandRecord t.table t.config) }, claimTableAct t))
      ∧ (w.front = none → takePart (.read .front) w t = ({ w with front := some t.front }, t))
      ∧ (w.rear = none → takePart (.read .rear) w t = ({ w with rear := some t.rear }, t))
      ∧ ∀ f r u, w.front = some f → w.rear = some r → w.live = none →
          u = shareAct (availability f.state.available r.state.available) w.input.load w.input.speed t →
          takePart .share w t = ({ w with live := some u.liveShare }, u))
    ∧ (∀ b f r n al, w.bands = some b → w.front = some f → w.rear = some r → w.live = some n →
        al = formAllocation w.input w.policy w.sequence b f r n →
        w.formed t = al
        ∧ (.record ∉ w.done →
            takePart .record w t = ({ w with done := .record :: w.done }, recordAllocation al t))
        ∧ (∀ a, .handOver a ∉ w.done →
            takePart (.handOver a) w t = ({ w with done := .handOver a :: w.done },
              commandHandoff a (match a with | .front => al.frontCommand | .rear => al.rearCommand) t))
        ∧ (∀ p, .mirror p ∉ w.done →
            takePart (.mirror p) w t = ({ w with done := .mirror p :: w.done },
              mirrorHandOver w.replying p al.result t))
        ∧ ∀ m, (takeMoment m (w, t)).1.formed (takeMoment m (w, t)).2 = al)
    ∧ ((w.bands ≠ none → takePart .claimTable w t = (w, t))
      ∧ (w.front ≠ none → takePart (.read .front) w t = (w, t))
      ∧ (w.rear ≠ none → takePart (.read .rear) w t = (w, t))
      ∧ (w.front = none ∨ w.rear = none ∨ w.live ≠ none → takePart .share w t = (w, t))
      ∧ ∀ x, x = .record ∨ (∃ a, x = .handOver a) ∨ (∃ p, x = .mirror p) →
          x ∈ w.done ∨ w.bands = none ∨ w.front = none ∨ w.rear = none ∨ w.live = none → takePart x w t = (w, t))
    ∧ ((∀ x, (∀ p, x = .mirror p → w.replying ≠ some p) → takeMoment (.part x) (w, t) = takePart x w t)
      ∧ (∀ p, w.replying = some p → takeMoment (.part (.mirror p)) (w, t) = (w, t))
      ∧ ∀ e, takeMoment (.event e) (w, t) = (w, eventAfter w.replying e t))

/-- An event that falls inside an allocation has the whole effect of its row (R95, R96), and governs what the allocation
reads after it and nothing that it has read: after the claim-table act and before the axles are read, between the two
reads, between the reads and the act of share control, before the claim-table act and after the others, and before the
hand-overs. A DEMAND or RESTART of the demand link falls inside none (R73). That the link whose DEMAND is being taken
neither has another request taken nor breaks inside its allocation is the model's reading of R159 (log 6). -/
def Obligations.AnEventInsideAnAllocationGovernsWhatIsReadAfterIt : Prop :=
  (∀ (replying : Option MasterId) (e : InnerEvent) (t : State),
      (∀ c, eventRow e = some c → (∀ p, replying = some p → c ≠ .masterLinkBreak p) →
        exec c t = .next (eventAfter replying e t))
      ∧ (∀ p f, e = .request p → Ready p f t → replying ≠ some p →
          (p = .demand → f.kind ≠ 0x21#8 ∧ f.kind ≠ 0x7E#8) →
          exec (decodeRequest p f) t = .next (eventAfter replying e t))
      ∧ (∀ f, e = .request .demand → Ready .demand f t → f.kind = 0x21#8 ∨ f.kind = 0x7E#8 →
          eventAfter replying e t = t)
      ∧ ∀ p, replying = some p → e = .request p ∨ e = .masterLinkBreak p → eventAfter replying e t = t)
  ∧ ∀ (replying : Option MasterId) (inp : AllocInput) (s start : State) (e : InnerEvent)
      (rest : List (List AllocMoment)) (form : BandRecord → AxleUnit → AxleUnit → State → Allocation)
      (share : AxleUnit → AxleUnit → State → State),
    start = { s with inside := rest, alloc := { s.alloc with counter := s.alloc.counter + 1#8 } } →
    (∀ f r t, share f r t
      = shareAct (availability f.state.available r.state.available) inp.load inp.speed t) →
    (∀ b f r t, form b f r t
      = formAllocation inp s.config.policy (s.alloc.counter + 1#8) b f r t.liveShare) →
    (∀ t, s.inside = [.part .claimTable, .event e] :: rest → t = eventAfter replying e (claimTableAct start) →
      (allocateWith replying inp s).1
        = form (bandRecord s.table s.config) t.front t.rear (share t.front t.rear t))
    ∧ (∀ t, s.inside = [.part .claimTable, .part (.read .front), .event e] :: rest →
      t = eventAfter replying e (claimTableAct start) →
      (allocateWith replying inp s).1
        = form (bandRecord s.table s.config) s.front t.rear (share s.front t.rear t))
    ∧ (∀ t, s.inside = [.part .claimTable, .part (.read .front), .part (.read .rear), .event e] :: rest →
      t = eventAfter replying e (claimTableAct start) →
      (allocateWith replying inp s).1
        = form (bandRecord s.table s.config) s.front s.rear (share s.front s.rear t))
    ∧ (∀ t, s.inside = [.part (.read .front), .part (.read .rear), .part .share, .event e] :: rest →
      t = eventAfter replying e (share s.front s.rear start) →
      (allocateWith replying inp s).1
        = form (bandRecord t.table t.config) s.front s.rear (share s.front s.rear start))
    ∧ (∀ t u al, s.inside
        = [.part .claimTable, .part (.read .front), .part (.read .rear), .part .share, .part .record, .event e] :: rest →
      u = share s.front s.rear (claimTableAct start) → al = form (bandRecord s.table s.config) s.front s.rear u →
      t = eventAfter replying e (recordAllocation al u) →
      allocateWith replying inp s
        = (al, mirrorHandOver replying .stability al.result (mirrorHandOver replying .demand al.result
            (commandHandoff .rear al.rearCommand (commandHandoff .front al.frontCommand t)))))
    ∧ ∀ (b : BandRecord) (f r : AxleUnit) (t : State),
      (f.state = .offline ∨ f.state = .rejoining →
        (form b f r t).frontCommand
            = ⟨s.alloc.counter + 1#8, .standby, 0, b.front.used.ceiling, b.front.used.floor⟩
          ∧ (form b f r t).result.front.state = f.state)
      ∧ (r.state = .offline ∨ r.state = .rejoining →
        (form b f r t).rearCommand
            = ⟨s.alloc.counter + 1#8, .standby, 0, b.rear.used.ceiling, b.rear.used.floor⟩
          ∧ (form b f r t).result.rear.state = r.state)

/-! ## Demand supervision -/

/-- A DEMAND is refused with NOT_CONFIGURED or BAD_FIELD, in order, or accepted: the allocator enters RUNNING with the
lapse timer started, a lapse ends with the LAPSE record removed, and the allocation's result record is the reply
(R71, R93, R132 to R134), whatever falls inside the allocation (log 6); with nothing inside it is `allocate`. With mirror
enabled on the UP demand link the same record waits in the mirror slot, behind the reply (R94, R167). -/
def Obligations.DemandIsRefusedOrStartsAnAllocation : Prop :=
  ∀ (f : Frame) (s : State), Ready .demand f s → f.kind = 0x21#8 →
    (s.alloc.state = .unconfigured → exec (.demand .demand) s = .next (answered .demand f [0x11#8] (taken .demand s)))
    ∧ (s.alloc.state ≠ .unconfigured →
        (¬ (-32000 ≤ f.signedAt 1 ∧ f.signedAt 1 ≤ 32000 ∧ -2000 ≤ f.signedAt 3 ∧ f.signedAt 3 ≤ 2000
            ∧ f.natAt 5 ≤ 100) →
          exec (.demand .demand) s = .next (answered .demand f [0x13#8] (taken .demand s)))
        ∧ ∀ (inp : AllocInput) (started : State),
          -32000 ≤ f.signedAt 1 → f.signedAt 1 ≤ 32000 → -2000 ≤ f.signedAt 3 → f.signedAt 3 ≤ 2000 →
          f.natAt 5 ≤ 100 →
          inp = ⟨f.signedAt 1, f.signedAt 3, f.natAt 5, f.byteAt 0, .running⟩ →
          started = { taken .demand s with
            holds := if s.alloc.state = .lapsed then s.holds.filter fun h => h.origin = .master else s.holds
            alloc := { s.alloc with
              state := .running
              settled := false
              lapseTimer := .running s.config.timing.lapseTime
              lapseStepTimer := .stopped
              lastSpeed := f.signedAt 3
              lastLoad := f.natAt 5 } } →
          exec (.demand .demand) s
            = .next (answered .demand f (allocateWith (some .demand) inp started).1.result.bytes
                (allocateWith (some .demand) inp started).2)
          ∧ (s.inside = [] →
              exec (.demand .demand) s
                = .next (answered .demand f (allocationOf inp started).result.bytes (allocate inp started)))
          ∧ (s.demandPort.alert.mirrorEnable = true → s.demandPort.link = .up →
              ∃ t before result, exec (.demand .demand) s = .next t
                ∧ result = (allocateWith (some .demand) inp started).1.result
                ∧ t.demandPort.outgoing = before ++ [⟨0xA1#8, result.bytes⟩]
                ∧ t.demandPort.mirrorSlot = some result))

/-- The expiry of the lapse timer in RUNNING: LAPSED, not settled, the LAPSE record pushed with the live share captured,
DEMAND_LAPSE in both sets, the lapse-step timer started (R60, R136). Outside RUNNING and with the timer stopped no expiry
occurs: the row leaves the state as it was (log 3). -/
def Obligations.TheLapseTimerExpiryEntersLapsed : Prop :=
  (∀ (s : State) (d : Nat), s.resetAsserted = false → s.alloc.state = .running → s.alloc.lapseTimer = .running d →
    exec .lapseTimerExpiry s = .next (raiseBoth .demandLapse
      { s with
        holds := s.holds ++ [⟨.allocator, .lapse, s.liveShare, true, 0#8⟩]
        alloc := { s.alloc with
          state := .lapsed
          settled := false
          lapseTimer := .stopped
          lapseStepTimer := .running s.config.timing.lapseStep } }))
  ∧ ∀ s : State, s.alloc.state ≠ .running ∨ s.alloc.lapseTimer = .stopped → exec .lapseTimerExpiry s = .next s

/-- A lapse step: an allocation of the last clipped total moved toward zero by the lapse slew, at the end of which the
allocator settles or the lapse-step timer is restarted; no reply (R72, R91, R138), whatever falls inside the allocation
(log 6); with nothing inside it is `allocate`, and the demand port's transmitter takes what waits (R167). Outside LAPSED,
once settled, and with the lapse-step timer stopped none is taken (R138, R140): the row leaves the state as it was
(log 3). -/
def Obligations.ALapseStepRampsDownAndSettles : Prop :=
  (∀ (s : State) (d : Nat) (inp : AllocInput) (al : Allocation) (u : State) (settles : Bool), s.resetAsserted = false →
    s.alloc.state = .lapsed → s.alloc.settled = false → s.alloc.lapseStepTimer = .running d →
    inp = ⟨if s.alloc.lastClipped.natAbs ≤ s.config.motion.lapseSlew then 0
        else if 0 < s.alloc.lastClipped then s.alloc.lastClipped - s.config.motion.lapseSlew
        else s.alloc.lastClipped + s.config.motion.lapseSlew,
      s.alloc.lastSpeed, s.alloc.lastLoad, 0#8, .lapsed⟩ →
    (al, u) = allocateWith none inp s →
    (settles = true ↔ al.clipped = 0 ∧ al.frontCommand.torque = 0 ∧ al.rearCommand.torque = 0) →
    exec .lapseStep s = .next
      { u with
        alloc := { u.alloc with
          settled := settles
          lapseStepTimer := if settles then .stopped else .running u.config.timing.lapseStep } }
    ∧ (s.inside = [] →
        al = allocationOf inp s ∧ u = (allocate inp s).onMaster .demand MasterPort.arbitrate))
  ∧ ∀ s : State, s.alloc.state ≠ .lapsed ∨ s.alloc.settled = true ∨ s.alloc.lapseStepTimer = .stopped →
      exec .lapseStep s = .next s

/-- A MOTION section taken inside a lapse step between the two acts governs the act that comes after it, and from then on
stands (R72, R96, R154). Taken after share control's act and before the claim-table act, it governs that step's torque
slews and not its share slew: this first clause alone is what R154 says in words. Taken after the claim-table act and before
share control's, it governs its share slew and not its torque slews: this second clause follows from where each value is
read (R29, R41, R96) in the order of the acts that the model's form allows (log 6). The lapse slew was read at the start.
The moments are the model's form (log 6). -/
def Obligations.AMotionTakenBetweenTheActsGovernsTheLaterOne : Prop :=
  ∀ (f : Frame) (s : State) (d g : Nat) (m : Motion) (inp : AllocInput) (rest : List (List AllocMoment))
      (moved : Nat → Nat),
    Ready .demand f s → s.alloc.state = .lapsed → s.alloc.settled = false → s.alloc.lapseStepTimer = .running d →
    f.kind = 0x51#8 → f.byteAt 0 = 3#8 → f.payload.length = 9 →
    1 ≤ f.unsignedAt 1 → f.unsignedAt 1 ≤ 1000 → 1 ≤ f.unsignedAt 3 → f.unsignedAt 3 ≤ 16000 →
    1 ≤ f.unsignedAt 5 → f.unsignedAt 5 ≤ 16000 → 1 ≤ f.unsignedAt 7 → f.unsignedAt 7 ≤ 16000 →
    m = ⟨f.unsignedAt 1, f.unsignedAt 3, f.unsignedAt 5, f.unsignedAt 7⟩ →
    s.front.state = .online ∨ s.front.state = .suspect → s.rear.state = .online ∨ s.rear.state = .suspect →
    g = (match s.holds.getLast? with
      | some h => h.share
      | none => mapShare s s.alloc.lastLoad s.alloc.lastSpeed) →
    (∀ slew, moved slew = (if s.liveShare + slew < g then s.liveShare + slew
      else if g + slew < s.liveShare then s.liveShare - slew else g)) →
    inp = ⟨if s.alloc.lastClipped.natAbs ≤ s.config.motion.lapseSlew then 0
        else if 0 < s.alloc.lastClipped then s.alloc.lastClipped - s.config.motion.lapseSlew
        else s.alloc.lastClipped + s.config.motion.lapseSlew,
      s.alloc.lastSpeed, s.alloc.lastLoad, 0#8, .lapsed⟩ →
    (s.inside = [.part (.read .front), .part (.read .rear), .part .share, .event (.request .demand)] :: rest →
      ∃ t, exec .lapseStep s = .next t ∧ t.config.motion = m ∧ t.liveShare = moved s.config.motion.shareSlew
        ∧ t.alloc.lastResult = some (formAllocation inp s.config.policy (s.alloc.counter + 1#8)
            (bandRecord s.table { s.config with motion := m }) s.front s.rear
            (moved s.config.motion.shareSlew)).result)
    ∧ (s.inside = [.part .claimTable, .event (.request .demand)] :: rest →
      ∃ t, exec .lapseStep s = .next t ∧ t.config.motion = m ∧ t.liveShare = moved m.shareSlew
        ∧ t.alloc.lastResult = some (formAllocation inp s.config.policy (s.alloc.counter + 1#8)
            (bandRecord s.table s.config) s.front s.rear (moved m.shareSlew)).result)

/-- RESTART on the demand link (R142 to R145): the allocator, the claim table, share control and both axle supervisors
are reset, every transmitter sends a break, and the configuration, the map, the alert units, the link states and the
queues are kept. That a RESTART during a frame that already owes a break adds none is the model's choice (log 20). -/
def Obligations.RestartResetsAllocationAndKeepsTheRest : Prop :=
  ∀ (f : Frame) (s : State) (after : AllocState) (resetAxle : AxleUnit → AxleUnit) (breakAfter : MasterTx → MasterTx),
    Ready .demand f s → f.kind = 0x7E#8 →
    after = (if s.alloc.state = .unconfigured then .unconfigured else .ready) →
    (∀ u, resetAxle u =
      { u with
        tx := match u.tx with
          | .idle => .breaking
          | .sending r _ => .sending r true
          | .breaking => .breaking
        slot := none
        state := .offline
        missCount := 0
        goodCount := 0
        outstanding := none
        lastCommanded := 0
        lastDelivered := 0
        lastSpeed := 0
        window := .stopped }) →
    (∀ tx, breakAfter tx = (match tx with
        | .idle => .breaking
        | .sending r _ => .sending r true
        | .breaking => .breaking)) →
    exec (.restart .demand) s = .next (answered .demand f
      [0x00#8, if after = .unconfigured then 0x00#8 else 0x01#8]
      { taken .demand s with
        demandPort := { (taken .demand s).demandPort with tx := breakAfter s.demandPort.tx }
        stabilityPort := { s.stabilityPort with tx := breakAfter s.stabilityPort.tx }
        front := resetAxle s.front
        rear := resetAxle s.rear
        table := []
        lastBands := none
        liveShare := 500
        forced := .none
        lastGoverning := 500
        holds := []
        alloc :=
          { state := after, settled := false, lapseTimer := .stopped, lapseStepTimer := .stopped, counter := 0#8,
            lastSpeed := 0, lastLoad := 0, lastClipped := 0, lastResult := none } })

/-! ## Configuration -/

/-- A CONFIGURE on the demand link that passes every check replaces its whole section, and no other; an ENVELOPE leaves
the allocator READY (R131, R150 to R156). A CONFIGURE of the ALERT section, from either link and in every allocator state,
sets the port's own masks and mirror enable, judges its ALERT line and, with the mirror off, discards an unsent mirror
record (R150, R151, R157). -/
def Obligations.ConfigureReplacesTheWholeSection : Prop :=
  (
    ∀ (f : Frame) (s : State), Ready .demand f s → f.kind = 0x51#8 →
      (f.byteAt 0 = 1#8 → f.payload.length = 13 → s.alloc.state = .unconfigured ∨ s.alloc.state = .ready →
        s.table = [] →
        1 ≤ f.signedAt 1 → f.signedAt 1 ≤ 16000 → -16000 ≤ f.signedAt 3 → f.signedAt 3 ≤ -1 →
        1 ≤ f.signedAt 5 → f.signedAt 5 ≤ 16000 → -16000 ≤ f.signedAt 7 → f.signedAt 7 ≤ -1 →
        1 ≤ f.signedAt 9 → f.signedAt 9 ≤ 32000 → -32000 ≤ f.signedAt 11 → f.signedAt 11 ≤ -1 →
        exec (.configureEnvelope .demand) s = .next (answered .demand f [0x00#8, 0x01#8]
          { taken .demand s with
            config := { s.config with envelope := ⟨f.signedAt 1, f.signedAt 3, f.signedAt 5, f.signedAt 7,
              f.signedAt 9, f.signedAt 11⟩ }
            alloc := { s.alloc with state := .ready } }))
      ∧ (∀ b1 b2 b3 b4 b5 b6 : Bool, f.byteAt 0 = 2#8 → f.payload.length = 7 →
        s.alloc.state = .unconfigured ∨ s.alloc.state = .ready →
        f.byteAt 1 = (if b1 then 1#8 else 0#8) → f.byteAt 2 = (if b2 then 1#8 else 0#8) →
        f.byteAt 3 = (if b3 then 1#8 else 0#8) → f.byteAt 4 = (if b4 then 1#8 else 0#8) →
        f.byteAt 5 = (if b5 then 1#8 else 0#8) → f.byteAt 6 = (if b6 then 1#8 else 0#8) →
        exec (.configurePolicy .demand) s = .next (answered .demand f [0x00#8, 0x02#8]
          { taken .demand s with
            config := { s.config with policy :=
              ⟨if b1 then .refuse else .clamp, if b2 then .refuse else .clamp, if b3 then .shed else .spill,
                if b4 then .shed else .spill, if b5 then .tighten else .replace,
                if b6 then .tighten else .replace⟩ } }))
      ∧ (f.byteAt 0 = 3#8 → f.payload.length = 9 →
        1 ≤ f.unsignedAt 1 → f.unsignedAt 1 ≤ 1000 → 1 ≤ f.unsignedAt 3 → f.unsignedAt 3 ≤ 16000 →
        1 ≤ f.unsignedAt 5 → f.unsignedAt 5 ≤ 16000 → 1 ≤ f.unsignedAt 7 → f.unsignedAt 7 ≤ 16000 →
        exec (.configureMotion .demand) s = .next (answered .demand f [0x00#8, 0x03#8]
          { taken .demand s with
            config := { s.config with motion := ⟨f.unsignedAt 1, f.unsignedAt 3, f.unsignedAt 5, f.unsignedAt 7⟩ } }))
      ∧ (f.byteAt 0 = 4#8 → f.payload.length = 7 → s.alloc.state = .unconfigured ∨ s.alloc.state = .ready →
        2 ≤ f.natAt 1 → f.natAt 1 ≤ 250 → 1 ≤ f.natAt 2 → f.natAt 2 ≤ 50 → 10 ≤ f.natAt 3 → f.natAt 3 ≤ 200 →
        1 ≤ f.natAt 4 → f.natAt 4 ≤ 8 → 1 ≤ f.natAt 5 → f.natAt 5 ≤ 16 → 1 ≤ f.natAt 6 → f.natAt 6 ≤ 250 →
        exec (.configureTiming .demand) s = .next (answered .demand f [0x00#8, 0x04#8]
          { taken .demand s with
            config := { s.config with timing :=
              ⟨f.natAt 1, f.natAt 2, f.natAt 3, f.natAt 4, f.natAt 5, f.natAt 6⟩ } }))
      ∧ (∀ bands : List Nat, bands = (f.payload.drop 2).map BitVec.toNat → f.payload.length = 2 + f.natAt 1 →
        s.alloc.state = .unconfigured ∨ s.alloc.state = .ready → 1 ≤ bands.length → bands.length ≤ 7 →
        bands.Pairwise (· < ·) →
        (f.byteAt 0 = 5#8 → (∀ b ∈ bands, 1 ≤ b ∧ b ≤ 99) →
          exec (.configureLoadBands .demand) s = .next (answered .demand f [0x00#8, 0x05#8]
            { taken .demand s with config := { s.config with loadBands := bands } }))
        ∧ (f.byteAt 0 = 6#8 → (∀ b ∈ bands, 1 ≤ b ∧ b ≤ 250) →
          exec (.configureSpeedBands .demand) s = .next (answered .demand f [0x00#8, 0x06#8]
            { taken .demand s with config := { s.config with speedBands := bands } }))))
  ∧ ∀ (p : MasterId) (f : Frame) (s : State) (mirror : Bool), Ready p f s → f.kind = 0x51#8 → f.byteAt 0 = 7#8 →
    f.payload.length = 4 → (f.halfAt 1).getLsbD 14 = false → (f.halfAt 1).getLsbD 15 = false →
    f.byteAt 3 = (if mirror then 1#8 else 0#8) →
    exec (.configureAlert p) s = .next (answered p f [0x00#8, 0x07#8]
      ((taken p s).onMaster p fun m =>
        { m with
          alert := { m.alert with
            masks := f.halfAt 1
            mirrorEnable := mirror
            alertLine := decide (m.alert.flags &&& ~~~(f.halfAt 1) ≠ 0#16) }
          mirrorSlot := if mirror then m.mirrorSlot else none }))

/-- The refusals of a CONFIGURE, in order, and CONFIGURE of an unknown section (R150, R151): BAD_FIELD for the identifier
or the length, NOT_PERMITTED, WRONG_STATE, CLAIMS_PRESENT, BAD_FIELD for a field outside the ranges of R152 to R157. -/
def Obligations.ConfigureRefusalsComeInOrder : Prop :=
  ∀ (p : MasterId) (f : Frame) (s : State) (id : Nat) (bands : List Nat)
      (lengthOk stateOk fieldsOk : Bool), Ready p f s →
    f.kind = 0x51#8 → id = (f.byteAt 0).toNat →
    (lengthOk = true ↔ (id = 1 ∧ f.payload.length = 13) ∨ (id = 2 ∧ f.payload.length = 7)
      ∨ (id = 3 ∧ f.payload.length = 9) ∨ (id = 4 ∧ f.payload.length = 7)
      ∨ ((id = 5 ∨ id = 6) ∧ f.payload.length = 2 + f.natAt 1) ∨ (id = 7 ∧ f.payload.length = 4)) →
    (stateOk = true ↔ id = 3 ∨ id = 7 ∨ s.alloc.state = .unconfigured ∨ s.alloc.state = .ready) →
    bands = (f.payload.drop 2).map BitVec.toNat →
    (fieldsOk = true ↔
      (id = 1 ∧ (1 ≤ f.signedAt 1 ∧ f.signedAt 1 ≤ 16000 ∧ -16000 ≤ f.signedAt 3 ∧ f.signedAt 3 ≤ -1)
        ∧ (1 ≤ f.signedAt 5 ∧ f.signedAt 5 ≤ 16000 ∧ -16000 ≤ f.signedAt 7 ∧ f.signedAt 7 ≤ -1)
        ∧ (1 ≤ f.signedAt 9 ∧ f.signedAt 9 ≤ 32000 ∧ -32000 ≤ f.signedAt 11 ∧ f.signedAt 11 ≤ -1))
      ∨ (id = 2 ∧ ∀ i, 1 ≤ i → i ≤ 6 → f.byteAt i = 0#8 ∨ f.byteAt i = 1#8)
      ∨ (id = 3 ∧ (1 ≤ f.unsignedAt 1 ∧ f.unsignedAt 1 ≤ 1000) ∧ (1 ≤ f.unsignedAt 3 ∧ f.unsignedAt 3 ≤ 16000)
        ∧ (1 ≤ f.unsignedAt 5 ∧ f.unsignedAt 5 ≤ 16000) ∧ (1 ≤ f.unsignedAt 7 ∧ f.unsignedAt 7 ≤ 16000))
      ∨ (id = 4 ∧ (2 ≤ f.natAt 1 ∧ f.natAt 1 ≤ 250) ∧ (1 ≤ f.natAt 2 ∧ f.natAt 2 ≤ 50)
        ∧ (10 ≤ f.natAt 3 ∧ f.natAt 3 ≤ 200) ∧ (1 ≤ f.natAt 4 ∧ f.natAt 4 ≤ 8)
        ∧ (1 ≤ f.natAt 5 ∧ f.natAt 5 ≤ 16) ∧ (1 ≤ f.natAt 6 ∧ f.natAt 6 ≤ 250))
      ∨ ((id = 5 ∨ id = 6) ∧ 1 ≤ bands.length ∧ bands.length ≤ 7 ∧ bands.Pairwise (· < ·)
        ∧ ∀ b ∈ bands, 1 ≤ b ∧ b ≤ (if id = 5 then 99 else 250))
      ∨ (id = 7 ∧ (f.halfAt 1).getLsbD 14 = false ∧ (f.halfAt 1).getLsbD 15 = false
          ∧ (f.byteAt 3 = 0#8 ∨ f.byteAt 3 = 1#8))) →
    (id = 0 ∨ 7 < id → exec (.configureUnknownSection p) s = .next (answered p f [0x13#8] (taken p s)))
    ∧ (lengthOk = false → exec (decodeRequest p f) s = .next (answered p f [0x13#8] (taken p s)))
    ∧ (lengthOk = true →
        (p = .stability → id ≠ 7 → exec (decodeRequest p f) s = .next (answered p f [0x10#8] (taken p s)))
        ∧ (p = .demand ∨ id = 7 →
            (stateOk = false → exec (decodeRequest p f) s = .next (answered p f [0x12#8] (taken p s)))
            ∧ (stateOk = true →
                (id = 1 → s.table ≠ [] →
                  exec (decodeRequest p f) s = .next (answered p f [0x1B#8] (taken p s)))
                ∧ (id ≠ 1 ∨ s.table = [] → fieldsOk = false →
                  exec (decodeRequest p f) s = .next (answered p f [0x13#8] (taken p s))))))

/-- STATUS reports the part's state, in the codes of R183, and the requesting port's flags, and clears that port's flag
set and last fault kind and no other state (R30, R163, R183). -/
def Obligations.StatusReportsAndClearsThePortsFlags : Prop :=
  ([AllocState.unconfigured, .ready, .running, .lapsed].map AllocState.code = [0, 1, 2, 3]
    ∧ [AxleState.offline, .rejoining, .online, .suspect].map AxleState.code = [0, 1, 2, 3]
    ∧ [LinkState.down, .up, .broken].map LinkState.code = [0, 1, 2]
    ∧ [ForcedMarker.none, .front, .rear].map ForcedMarker.code = [0, 1, 2]
    ∧ [none, some .framing, some .parity, some .check, some .length, some .truncated, some .stray,
        some .brk].map faultCode = [0, 1, 2, 3, 4, 5, 6, 7])
  ∧ ∀ (p : MasterId) (f : Frame) (s : State) (frontBand rearBand : Band), Ready p f s → f.kind = 0x61#8 →
    frontBand = (match s.lastBands with
      | some b => b.front.used
      | none => ⟨s.config.envelope.frontUpper, s.config.envelope.frontLower⟩) →
    rearBand = (match s.lastBands with
      | some b => b.rear.used
      | none => ⟨s.config.envelope.rearUpper, s.config.envelope.rearLower⟩) →
    exec (.status p) s = .next (answered p f
      ([0x00#8,
        byteOf (s.alloc.state.code + 4 * s.alloc.settled.toNat + 8 * s.forced.code
          + 32 * faultCode (s.master p).alert.lastFault),
        byteOf (s.front.state.code + 16 * s.rear.state.code),
        byteOf (s.demandPort.link.code + 4 * s.stabilityPort.link.code + 16 * s.front.link.code
          + 64 * s.rear.link.code),
        byteOf s.table.length,
        byteOf ((s.table.countP fun e => e.source = .demand || e.source = .stability) + 16 * s.holds.length)]
        ++ unsignedBytes s.liveShare ++ unsignedBytes s.lastGoverning ++ halfBytes (s.master p).alert.flags
        ++ signedBytes frontBand.ceiling ++ signedBytes frontBand.floor
        ++ signedBytes rearBand.ceiling ++ signedBytes rearBand.floor)
      ((taken p s).onMaster p fun m =>
        { m with alert := { m.alert with flags := 0#16, lastFault := none, alertLine := false } }))

/-- Every step keeps the master ports sound: queue sizes, HOLDOFF, the waiting-for-room marker and ALERT follow what they
report, unused positions clear (R157, R159, R170, R180, R183). -/
def Obligations.EveryStepKeepsTheMasterPortsSound : Prop :=
  ∀ s t : State, s.portsSound = true → step s = .next t → t.portsSound = true

/-! ## Axle supervision -/

/-- The completion of a COMMAND frame (R102): a miss for an outstanding command, then the frame's sequence outstanding,
the window started and the transmitter free for the waiting record; a frame that a RESTART has voided only gives way to
the break (R124). With no frame in transmission none completes: the row leaves the state as it was (log 3). -/
def Obligations.CommandCompletionStartsTheWindow : Prop :=
  ∀ (a : AxleId) (s : State) (r : CommandRecord), s.resetAsserted = false →
    ((s.axle a).tx = .sending r false →
      exec (.commandComplete a) s = .next
        (((if (s.axle a).outstanding = none then s
            else miss a (s.onAxle a fun u => { u with outstanding := none, window := .stopped })).onAxle a fun u =>
          { u with
            outstanding := some r.sequence
            window := .running (10 * s.config.timing.windowCount)
            tx := .idle }).onAxle a AxleUnit.takePending))
    ∧ ((s.axle a).tx = .sending r true →
      exec (.commandComplete a) s = .next (s.onAxle a fun u => { u with tx := .breaking }))
    ∧ ((s.axle a).tx = .idle ∨ (s.axle a).tx = .breaking → exec (.commandComplete a) s = .next s)
    ∧ ∀ u : AxleUnit, (∀ q, u.tx = .idle → u.slot = some q → u.link = .up →
          u.takePending = { u with tx := .sending q false, slot := none })
        ∧ (u.tx ≠ .idle ∨ u.slot = none ∨ u.link ≠ .up → u.takePending = u)

/-- The expiry of the feedback window counts one miss for the outstanding command and clears it (R114), and a miss changes
the axle by the state it finds; on entering OFFLINE the counts and the last commanded torque become 0, the inverter's
entries go, a waiting DRIVE record becomes STANDBY 0 and AXLE_DOWN is set in both sets (R25, R115 to R117). With the timer
stopped no expiry occurs (R109): the row leaves the state as it was (log 3). -/
def Obligations.AWindowExpiryCountsAMiss : Prop :=
  (∀ (a : AxleId) (s : State) (d : Nat), s.resetAsserted = false → (s.axle a).window = .running d →
      ((s.axle a).outstanding ≠ none →
        exec (.feedbackWindowExpiry a) s
          = .next (miss a (s.onAxle a fun u => { u with outstanding := none, window := .stopped }))))
    ∧ (∀ (a : AxleId) (s : State), (s.axle a).window = .stopped → exec (.feedbackWindowExpiry a) s = .next s)
    ∧ ∀ (a : AxleId) (s : State),
      ((s.axle a).state = .offline → miss a s = s)
      ∧ ((s.axle a).state = .rejoining → miss a s = enteredOffline a s)
      ∧ ((s.axle a).state = .online →
          (s.config.timing.missLimit ≤ 1 → miss a s = enteredOffline a s)
          ∧ (1 < s.config.timing.missLimit →
              miss a s = s.onAxle a fun u => { u with state := .suspect, missCount := 1 }))
      ∧ ((s.axle a).state = .suspect →
          (s.config.timing.missLimit ≤ (s.axle a).missCount + 1 → miss a s = enteredOffline a s)
          ∧ ((s.axle a).missCount + 1 < s.config.timing.missLimit →
              miss a s = s.onAxle a fun u => { u with missCount := u.missCount + 1 }))

/-- The layout of FEEDBACK (R183): the sequence echo at byte 0, the ready indication at bit 0 of byte 1, delivered torque at
bytes 2 and 3, motor speed at 4 and 5, the derate control at byte 6, bits 0 to 3 for ceiling present, floor present, clear
ceiling and clear floor, then the derate ceiling when present and the derate floor when present; two-byte fields high byte
first in two's complement.

A matched FEEDBACK (R106, R110, R111, R113, R118): the window stopped, the outstanding command cleared, the delivered
torque and motor speed stored; a ready answer advances the axle and hands on its derates, a not-ready answer puts the axle
OFFLINE. That the CEILING intake is taken before the FLOOR intake is the model's choice (R17 leaves it open; log 19). -/
def Obligations.AMatchedFeedbackAdvancesTheAxle : Prop :=
  (∀ (f : Frame) (b : FeedbackFields) (echo ind torqueHi torqueLo speedHi speedLo ctl ceilHi ceilLo floorHi floorLo : Byte)
      (signed : Byte → Byte → Int → Prop),
    b = readFeedback f →
    (∀ hi lo v, signed hi lo v ↔
      v = (if hi.toNat < 128 then (256 * hi.toNat + lo.toNat : Int) else 256 * hi.toNat + lo.toNat - 65536)) →
    f.payload = [echo, ind, torqueHi, torqueLo, speedHi, speedLo, ctl]
      ++ (if ctl.getLsbD 0 then [ceilHi, ceilLo] else []) ++ (if ctl.getLsbD 1 then [floorHi, floorLo] else []) →
    b.sequence = echo ∧ b.ready = ind.getLsbD 0 ∧ signed torqueHi torqueLo b.delivered ∧ signed speedHi speedLo b.speed
      ∧ b.ceilingPresent = ctl.getLsbD 0 ∧ b.floorPresent = ctl.getLsbD 1
      ∧ b.clearCeiling = ctl.getLsbD 2 ∧ b.clearFloor = ctl.getLsbD 3
      ∧ (ctl.getLsbD 0 = true → signed ceilHi ceilLo b.ceiling) ∧ (ctl.getLsbD 1 = true → signed floorHi floorLo b.floor))
  ∧ ∀ (a : AxleId) (f : Frame) (b : FeedbackFields) (s stored : State) (ceiling floor : Derate),
    Completing (.axle a) f s → f.kind = 0x91#8 → b = readFeedback f →
    f.payload.length = 7 + (if b.ceilingPresent then 2 else 0) + (if b.floorPresent then 2 else 0) →
    ¬ (b.ceilingPresent = true ∧ b.clearCeiling = true) → ¬ (b.floorPresent = true ∧ b.clearFloor = true) →
    (s.axle a).outstanding = some b.sequence →
    stored = s.onAxle a (fun u =>
      { u with
        receiver := .idle
        outstanding := none
        window := .stopped
        lastDelivered := b.delivered
        lastSpeed := b.speed }) →
    ceiling = (if b.ceilingPresent then .present b.ceiling else if b.clearCeiling then .clear else .nothing) →
    floor = (if b.floorPresent then .present b.floor else if b.clearFloor then .clear else .nothing) →
    (b.ready = false →
      exec (.feedback a) s
        = .next (if (s.axle a).state = .offline then stored else enteredOffline a stored))
    ∧ (b.ready = true → ∀ good : Nat, ∀ advanced : State,
        good = (if (s.axle a).state = .rejoining then (s.axle a).goodCount + 1 else 1) →
        advanced = (match (s.axle a).state with
          | .online => stored
          | .suspect => stored.onAxle a fun u => { u with state := .online, missCount := 0 }
          | .offline | .rejoining =>
            if s.config.timing.rejoinCount ≤ good then
              raiseBoth .axleUp (stored.onAxle a fun u => { u with state := .online, goodCount := 0 })
            else stored.onAxle a fun u => { u with state := .rejoining, goodCount := good }) →
        exec (.feedback a) s
          = .next (derateIntake a .floor floor (derateIntake a .ceiling ceiling advanced)))

/-- A FEEDBACK that contradicts itself sets AXLE_LINK_FAULT (R104), one that is not matched sets STALE_FEEDBACK (R107), a
well-formed frame of another kind sets AXLE_LINK_FAULT (R105), each in both sets and with no other effect than that the
frame has ended. Where the receiver has no whole frame, the link is not UP, or the frame is of the other row's kind, nothing
has completed: the row leaves the state as it was (log 3). -/
def Obligations.AnUnmatchedAxleFrameOnlySetsItsFlag : Prop :=
  (∀ (a : AxleId) (f : Frame) (b : FeedbackFields) (consistent : Bool) (s : State),
    Completing (.axle a) f s → b = readFeedback f →
    (consistent = true ↔
      f.payload.length = 7 + (if b.ceilingPresent then 2 else 0) + (if b.floorPresent then 2 else 0)
        ∧ ¬ (b.ceilingPresent = true ∧ b.clearCeiling = true) ∧ ¬ (b.floorPresent = true ∧ b.clearFloor = true)) →
    (f.kind = 0x91#8 → consistent = false →
      exec (.feedback a) s = .next (raiseBoth .axleLinkFault (s.setReceiver (.axle a) .idle)))
    ∧ (f.kind = 0x91#8 → consistent = true → (s.axle a).outstanding ≠ some b.sequence →
      exec (.feedback a) s = .next (raiseBoth .staleFeedback (s.setReceiver (.axle a) .idle)))
    ∧ (f.kind ≠ 0x91#8 →
      exec (.axleForeignFrame a) s = .next (raiseBoth .axleLinkFault (s.setReceiver (.axle a) .idle))))
  ∧ ∀ (a : AxleId) (s : State),
    ((s.axle a).receiver.assembled = none ∨ (s.axle a).link ≠ .up →
      exec (.feedback a) s = .next s ∧ exec (.axleForeignFrame a) s = .next s)
    ∧ ∀ f, (s.axle a).receiver.assembled = some f →
      (f.kind ≠ 0x91#8 → exec (.feedback a) s = .next s) ∧ (f.kind = 0x91#8 → exec (.axleForeignFrame a) s = .next s)

/-- A derate intake (R17 to R19): nothing leaves the table, a clear removes the entry of the key, a present value is put to
the envelope test; an entry with the same value and mark stays in its place, any other is replaced at the end, and
INVERTER_CLAIM_ADJUSTED is set in both sets when the value is clamped or refused. -/
def Obligations.ADerateIsStoredClearedOrRefused : Prop :=
  ∀ (a : AxleId) (kind : ClaimKind) (s : State), kind ≠ .slew →
    derateIntake a kind .nothing s = s
    ∧ derateIntake a kind .clear s = { s with table := entriesNotUnder s.table a.source a.claimAxle kind }
    ∧ (∀ x, EnvelopeRefuses s.config a.claimAxle kind x →
        derateIntake a kind (.present x) s = raiseBoth .inverterClaimAdjusted s)
    ∧ ∀ (x v : Int) (clamped : Bool), EnvelopeStores s.config a.claimAxle kind x v clamped →
        (∀ old, entriesUnder s.table a.source a.claimAxle kind = [old] → old.value = v → old.clamped = clamped →
          derateIntake a kind (.present x) s = (if clamped then raiseBoth .inverterClaimAdjusted s else s))
        ∧ ∀ stored : State,
          entriesUnder s.table a.source a.claimAxle kind = []
            ∨ (∃ old, entriesUnder s.table a.source a.claimAxle kind = [old]
              ∧ ¬ (old.value = v ∧ old.clamped = clamped)) →
          stored = { s with
            table := entriesNotUnder s.table a.source a.claimAxle kind ++ [derateStored a kind v clamped] } →
          derateIntake a kind (.present x) s
            = (if clamped then raiseBoth .inverterClaimAdjusted stored else stored)

/-- A break of an axle link (R120, R175): the frame in transmission is cut off (a break owed by a RESTART then begins,
log 11), the slot, the outstanding command and a partial frame are dropped without a miss, the axle enters OFFLINE if it
was not, and AXLE_LINK_FAULT is set in both sets. That the receiver of the BROKEN link is held in IDLE is the model's choice
(log 18). A link that is not UP has no break (R175): the row leaves the state as it was (log 3). -/
def Obligations.AnAxleLinkBreakPutsTheAxleOffline : Prop :=
  (∀ (a : AxleId) (s broken : State), s.resetAsserted = false → (s.axle a).link = .up →
    broken = s.onAxle a (fun u =>
      { u with
        link := .broken
        receiver := .idle
        tx := match u.tx with
          | .sending _ true => .breaking
          | .sending _ false => .idle
          | .idle => .idle
          | .breaking => .breaking
        slot := none
        outstanding := none
        window := .stopped }) →
    exec (.axleLinkBreak a) s = .next
      (raiseBoth .axleLinkFault (if (s.axle a).state = .offline then broken else enteredOffline a broken)))
  ∧ ∀ (a : AxleId) (s : State), (s.axle a).link ≠ .up → exec (.axleLinkBreak a) s = .next s

/-- Every step keeps both axle supervisors sound, in their states, counts, timers and slots, and every COMMAND record held
or sent sound: torque within its band in DRIVE, zero in STANDBY (R88, R98, R101, R103, R115). -/
def Obligations.EveryStepKeepsTheAxlesAndCommandsSound : Prop :=
  ∀ s t : State, s.axlesSound = true → s.commandsSound = true → step s = .next t →
    t.axlesSound = true ∧ t.commandsSound = true

/-! ## Links -/

/-- A well-formed frame joins the receive queue at the tail, or is dropped with FRAME_DROPPED when 4 frames stand; HOLDOFF
and the marker follow (R169, R180). Where the receiver has no whole frame or the link is not UP nothing has completed: the
row leaves the state as it was (log 3). -/
def Obligations.ACompletedFrameJoinsTheQueueOrIsDropped : Prop :=
  (∀ (p : MasterId) (f : Frame) (s : State), Completing (.master p) f s →
    ((s.master p).rxQueue.length < 4 →
      exec (.frameReceived p) s = .next (s.onMaster p fun m =>
        { m with
          receiver := .idle
          rxQueue := m.rxQueue ++ [f]
          holdoff := decide (m.rxQueue.length = 3)
          waitingForRoom := decide (4 ≤ m.replyQueue.length) }))
    ∧ (4 ≤ (s.master p).rxQueue.length →
      exec (.frameReceived p) s = .next (raise p .frameDropped (s.setReceiver (.master p) .idle))))
  ∧ ∀ (p : MasterId) (s : State), (s.master p).receiver.assembled = none ∨ (s.master p).link ≠ .up →
      exec (.frameReceived p) s = .next s

/-- The twelve bits of a correct character (R173); the payload lengths allowed for each kind (R179); and what a correct
character does on an UP link, by the receiver's assembly state (R174, R177), a length not allowed being a LENGTH fault; the
check character of a whole frame has the effect of the frame's completion (log 10). -/
def Obligations.CharactersAssembleFrames : Prop :=
  (∀ (marked : Bool) (b : Byte) (c : LineCharacter), c = lineCharacter marked b ↔
      c.getLsbD 0 = false ∧ (∀ i, i < 8 → c.getLsbD (i + 1) = b.getLsbD i) ∧ c.getLsbD 9 = marked
        ∧ ((List.range 10).countP fun i => c.getLsbD (i + 1)) % 2 = 0 ∧ c.getLsbD 11 = true)
  ∧ (∀ (p : MasterId) (k : Byte) (n : Nat), lengthAllowed (.master p) k n = true ↔
      (if k = 0x21#8 ∨ k = 0x31#8 then n = 7
       else if k = 0x32#8 ∨ k = 0x54#8 then n = 2
       else if k = 0x41#8 then n = 4
       else if k = 0x53#8 ∨ k = 0x62#8 then n = 1
       else if k = 0x33#8 ∨ k = 0x42#8 ∨ k = 0x61#8 ∨ k = 0x63#8 ∨ k = 0x7E#8 then n = 0
       else if k = 0x51#8 then 1 ≤ n ∧ n ≤ 13
       else if k = 0x52#8 then 3 ≤ n ∧ n ≤ 19
       else n ≤ 24))
  ∧ (∀ (a : AxleId) (k : Byte) (n : Nat), lengthAllowed (.axle a) k n = true ↔
      (if k = 0x91#8 then n = 7 ∨ n = 9 ∨ n = 11 else n ≤ 24))
  ∧ ∀ (l : Link) (b : Byte) (s : State), s.resetAsserted = false →
    (s.linkOf l ≠ .up → ∀ marked, exec (.characterReceived l marked b) s = .next s)
    ∧ (s.linkOf l = .up →
      (s.receiverOf l = .idle →
        exec (.characterReceived l true b) s = .next (s.setReceiver l (.awaitLength b))
        ∧ exec (.characterReceived l false b) s = .next (faultReported l .stray s))
      ∧ (s.receiverOf l = .discarding →
        exec (.characterReceived l true b) s = .next (s.setReceiver l (.awaitLength b))
        ∧ exec (.characterReceived l false b) s = .next s)
      ∧ (∀ k, s.receiverOf l = .awaitLength k →
        exec (.characterReceived l true b) s
          = .next (faultReported l .truncated (s.setReceiver l (.awaitLength b)))
        ∧ (lengthAllowed l k b.toNat = true →
          exec (.characterReceived l false b) s = .next (s.setReceiver l (.awaitPayload k b.toNat [])))
        ∧ (lengthAllowed l k b.toNat = false →
          exec (.characterReceived l false b) s = .next (faultReported l .length (s.setReceiver l .discarding))))
      ∧ ∀ k n got, s.receiverOf l = .awaitPayload k n got →
        exec (.characterReceived l true b) s
          = .next (faultReported l .truncated (s.setReceiver l (.awaitLength b)))
        ∧ (got.length < n →
          exec (.characterReceived l false b) s = .next (s.setReceiver l (.awaitPayload k n (got ++ [b]))))
        ∧ (n ≤ got.length →
          (((k :: byteOf got.length :: got).foldl (· + ·) b ≠ 0#8) →
            exec (.characterReceived l false b) s = .next (faultReported l .check (s.setReceiver l .idle)))
          ∧ (((k :: byteOf got.length :: got).foldl (· + ·) b = 0#8) →
            exec (.characterReceived l false b) s
              = exec (match l with
                | .master p => .frameReceived p
                | .axle a => if k = 0x91#8 then .feedback a else .axleForeignFrame a) s)))

/-- The receive faults and the idle gap on an UP link, by the receiver's assembly state (R177, R178): FRAMING for a low stop
bit, whatever the parity, and PARITY for a high one with an odd number of ones in data, mark and parity, in every state;
CHECK at a check character, LENGTH at a length character, TRUNCATED inside a frame, STRAY between frames. A start bit found
high is noise (R173). The row's operand gives a faulty character by its bits (the model's form, log 16). A link that is not
UP raises no fault and has no gap to judge (R174), and a fault that the assembly state cannot meet does not occur: the row
leaves the state as it was (log 3). -/
def Obligations.ReceiveFaultsAndGapsAreReportedOnce : Prop :=
  (∀ (l : Link) (s : State), s.resetAsserted = false → s.linkOf l = .up →
    (∀ c : LineCharacter,
      (c.getLsbD 0 = true → exec (.receiveFault l (.character c)) s = .next s)
      ∧ (c.getLsbD 0 = false →
        (c.getLsbD 11 = false →
          exec (.receiveFault l (.character c)) s
            = .next (faultReported l .framing (s.setReceiver l .discarding)))
        ∧ (c.getLsbD 11 = true →
          (((List.range 10).countP fun i => c.getLsbD (i + 1)) % 2 = 1 →
            exec (.receiveFault l (.character c)) s
              = .next (faultReported l .parity (s.setReceiver l .discarding)))
          ∧ (((List.range 10).countP fun i => c.getLsbD (i + 1)) % 2 = 0 →
            exec (.receiveFault l (.character c)) s = .next s))))
    ∧ (∀ f, (s.receiverOf l).assembled = some f →
        exec (.receiveFault l .check) s = .next (faultReported l .check (s.setReceiver l .idle)))
    ∧ (∀ k, s.receiverOf l = .awaitLength k →
        exec (.receiveFault l .length) s = .next (faultReported l .length (s.setReceiver l .discarding)))
    ∧ (∀ k k' n got, s.receiverOf l = .awaitLength k' ∨ s.receiverOf l = .awaitPayload k' n got →
        exec (.receiveFault l (.truncated k)) s
          = .next (faultReported l .truncated (s.setReceiver l (.awaitLength k)))
        ∧ exec (.frameGapTimeout l) s = .next (faultReported l .truncated (s.setReceiver l .idle)))
    ∧ (s.receiverOf l = .idle →
        exec (.receiveFault l .stray) s = .next (faultReported l .stray s)
        ∧ exec (.frameGapTimeout l) s = .next s)
    ∧ (s.receiverOf l = .discarding → exec (.frameGapTimeout l) s = .next (s.setReceiver l .idle)))
  ∧ ∀ (l : Link) (s : State),
    (s.linkOf l ≠ .up → (∀ c, exec (.receiveFault l c) s = .next s) ∧ exec (.frameGapTimeout l) s = .next s)
    ∧ ((s.receiverOf l).assembled = none → exec (.receiveFault l .check) s = .next s)
    ∧ ((∀ k, s.receiverOf l ≠ .awaitLength k) → exec (.receiveFault l .length) s = .next s)
    ∧ (s.receiverOf l = .idle ∨ s.receiverOf l = .discarding →
        ∀ k, exec (.receiveFault l (.truncated k)) s = .next s)
    ∧ (s.receiverOf l ≠ .idle → exec (.receiveFault l .stray) s = .next s)

/-- A break of a master link (R22, R64, R171, R175): the port's queues, mirror slot and partial frame go, the frame in
transmission is cut off (a break owed by a RESTART then begins, log 11), its flag set becomes LINK_FAULT with BREAK; its
MASTER hold records are removed and its source's entries orphaned, with HOLD_REMOVED and CLAIM_ORPHANED in the other port's
set. That the receiver of the BROKEN link is held in IDLE is the model's choice (log 18). A link that is not UP has no break
(R175): the row leaves the state as it was (log 3). -/
def Obligations.AMasterLinkBreakEmptiesThePort : Prop :=
  (∀ (p : MasterId) (s broken : State) (held claimed : Bool), s.resetAsserted = false → (s.master p).link = .up →
    (held = true ↔ ∃ h ∈ s.holds, h.origin = .master ∧ h.holder = p.holder) →
    (claimed = true ↔ ∃ e ∈ s.table, e.source = p.source) →
    broken = { s.onMaster p (fun m =>
        { m with
          link := .broken
          receiver := .idle
          rxQueue := []
          waitingForRoom := false
          holdoff := false
          replyQueue := []
          mirrorSlot := none
          tx := match m.tx with
            | .sending _ true => .breaking
            | .sending _ false => .idle
            | .idle => .idle
            | .breaking => .breaking
          alert := { m.alert with
            flags := 0x0008#16
            lastFault := some .brk
            alertLine := !m.alert.masks.getLsbD 3 } }) with
      holds := s.holds.filter fun h => !(h.origin = .master && h.holder = p.holder)
      table := s.table.map fun e =>
        if e.source = p.source then
          { e with
            lifetime := some (match e.lifetime with
              | none => s.config.timing.orphanLifetime
              | some n => min n s.config.timing.orphanLifetime)
            orphaned := true }
        else e } →
    exec (.masterLinkBreak p) s = .next
      (raiseIf claimed p.other .claimOrphaned (raiseIf held p.other .holdRemoved broken)))
  ∧ ∀ (p : MasterId) (s : State), (s.master p).link ≠ .up → exec (.masterLinkBreak p) s = .next s

/-- A DOWN or BROKEN link becomes UP with its receiver in IDLE (R174); the end of a frame frees a master transmitter for
the oldest reply, else the mirror record, or gives way to the break of a RESTART (R145, R167); the end of a break frees
the transmitter (R101, R167, R182). An UP link does not come UP, and a transmitter that sends no frame or no break ends
none: the row leaves the state as it was (log 3). -/
def Obligations.LinksComeUpAndTransmittersGoOn : Prop :=
  ∀ s : State, s.resetAsserted = false →
    (∀ l : Link, s.linkOf l ≠ .up → exec (.linkUp l) s = .next ((s.setLink l .up).setReceiver l .idle))
    ∧ (∀ (p : MasterId) (f : Frame),
        ((s.master p).tx = .sending f true →
          exec (.masterFrameSent p) s = .next (s.onMaster p fun m => { m with tx := .breaking }))
        ∧ (∀ c : Instr, (c = .masterFrameSent p ∧ (s.master p).tx = .sending f false)
            ∨ (c = .breakSent (.master p) ∧ (s.master p).tx = .breaking) →
          (∀ r rest, (s.master p).replyQueue = r :: rest → exec c s = .next (s.onMaster p fun m =>
            { m with
              tx := .sending r false
              replyQueue := rest
              holdoff := decide (4 ≤ m.rxQueue.length)
              waitingForRoom := !m.rxQueue.isEmpty && decide (4 ≤ rest.length) }))
          ∧ (∀ rec, (s.master p).replyQueue = [] → (s.master p).mirrorSlot = some rec →
            exec c s = .next (s.onMaster p fun m =>
              { m with tx := .sending ⟨0xA0#8, rec.bytes⟩ false, mirrorSlot := none }))
          ∧ ((s.master p).replyQueue = [] → (s.master p).mirrorSlot = none →
            exec c s = .next (s.onMaster p fun m => { m with tx := .idle }))))
    ∧ (∀ a : AxleId, (s.axle a).tx = .breaking →
        exec (.breakSent (.axle a)) s
          = .next ((s.onAxle a fun u => { u with tx := .idle }).onAxle a AxleUnit.takePending))
    ∧ ((∀ l : Link, s.linkOf l = .up → exec (.linkUp l) s = .next s)
      ∧ (∀ p : MasterId,
        ((s.master p).tx = .idle ∨ (s.master p).tx = .breaking → exec (.masterFrameSent p) s = .next s)
        ∧ ((s.master p).tx ≠ .breaking → exec (.breakSent (.master p)) s = .next s))
      ∧ ∀ a : AxleId, (s.axle a).tx ≠ .breaking → exec (.breakSent (.axle a)) s = .next s)

/-- The characters of a frame: the kind marked, then length, payload and a check character that brings the sum to zero
(R173, R176). A whole well-formed frame, sent character by character to a master port that is UP between frames, joins the
receive queue as that frame or is dropped when the queue is full (R177, R179, R180). -/
def Obligations.AFrameSentByCharactersJoinsTheQueue : Prop :=
  (∀ (f : Frame) (check : Byte), (f.kind :: byteOf f.payload.length :: f.payload).foldl (· + ·) check = 0#8 →
      f.characters = lineCharacter true f.kind
        :: (byteOf f.payload.length :: f.payload ++ [check]).map (lineCharacter false))
  ∧ ∀ (p : MasterId) (f : Frame) (s : State), f.wellFormed (.master p) = true → s.resetAsserted = false →
    (s.master p).link = .up → (s.master p).receiver = .idle →
    s.pending = f.characters.map (fun c => .characterReceived (.master p) (c.getLsbD 9) (characterData c)) →
    ((s.master p).rxQueue.length < 4 →
      Sys2Proof.core.run f.characters.length s = .next { s.onMaster p (fun m =>
        { m with
          rxQueue := m.rxQueue ++ [f]
          holdoff := decide (m.rxQueue.length = 3)
          waitingForRoom := decide (4 ≤ m.replyQueue.length) }) with pending := [] })
    ∧ (4 ≤ (s.master p).rxQueue.length →
      Sys2Proof.core.run f.characters.length s = .next { raise p .frameDropped s with pending := [] })

/-- Every request whose fields its layout carries is read back from its frame with every field as sent, is taken by its
own row, and travels in a frame that a master port's receiver accepts (R158, R176, R179, R183). -/
def Obligations.RequestsSurviveTheirFrames : Prop :=
  ∀ r : Request, r.wellFormed = true →
    readRequest r.frame = some r ∧ (∀ p, decodeRequest p r.frame = r.command p)
      ∧ ∀ p, r.frame.wellFormed (.master p) = true

end Statements
end

