-- ==== Sys2Proof/Laws/State.lean ====
section
/-! SUPPORT. One lemma per field per update of State: what the ports, axle supervisors, receivers, link states and alert
units read after an update of one of them. -/

namespace Sys2Proof.Machine

/-! ## Updates that leave the ports, or the axle supervisors -/

/-- An update of other fields leaves both master ports. -/
@[simp] theorem master_mk (s : State) (pe : List Instr) (ev : List (List AllocMoment)) (ra : Bool) (br : BitRate) (fr re : AxleUnit)
    (ta : List ClaimEntry) (lb : Option LastBands) (ma : Vector Nat 64) (ls : Nat) (fo : ForcedMarker) (lg : Nat)
    (ho : List HoldRecord) (al : Allocator) (co : ConfigStore) (p : MasterId) :
    (State.mk pe ev ra br s.demandPort s.stabilityPort fr re ta lb ma ls fo lg ho al co).master p = s.master p := by
  cases p <;> rfl

/-- An update of other fields leaves both axle supervisors. -/
@[simp] theorem axle_mk (s : State) (pe : List Instr) (ev : List (List AllocMoment)) (ra : Bool) (br : BitRate) (dp sp : MasterPort)
    (ta : List ClaimEntry) (lb : Option LastBands) (ma : Vector Nat 64) (ls : Nat) (fo : ForcedMarker) (lg : Nat)
    (ho : List HoldRecord) (al : Allocator) (co : ConfigStore) (a : AxleId) :
    (State.mk pe ev ra br dp sp s.front s.rear ta lb ma ls fo lg ho al co).axle a = s.axle a := by
  cases a <;> rfl

@[simp] theorem master_demand (s : State) : s.master .demand = s.demandPort := rfl
@[simp] theorem master_stability (s : State) : s.master .stability = s.stabilityPort := rfl
@[simp] theorem axle_front (s : State) : s.axle .front = s.front := rfl
@[simp] theorem axle_rear (s : State) : s.axle .rear = s.rear := rfl

/-! ## A master port replaced or changed -/

@[simp] theorem master_setMaster (s : State) (p : MasterId) (m : MasterPort) : (s.setMaster p m).master p = m := by
  cases p <;> rfl

@[simp] theorem master_setMaster_other (s : State) (p : MasterId) (m : MasterPort) :
    (s.setMaster p m).master p.other = s.master p.other := by
  cases p <;> rfl

@[simp] theorem master_onMaster (s : State) (p : MasterId) (g : MasterPort → MasterPort) :
    (s.onMaster p g).master p = g (s.master p) := by
  cases p <;> rfl

@[simp] theorem master_onMaster_other (s : State) (p : MasterId) (g : MasterPort → MasterPort) :
    (s.onMaster p g).master p.other = s.master p.other := by
  cases p <;> rfl

theorem master_onMaster_of_ne (s : State) {p q : MasterId} (h : q ≠ p) (g : MasterPort → MasterPort) :
    (s.onMaster p g).master q = s.master q := by
  cases p <;> cases q <;> first | rfl | exact absurd rfl h

theorem master_cases {P : MasterPort → Prop} (s : State) (hd : P s.demandPort) (hs : P s.stabilityPort)
    (p : MasterId) : P (s.master p) := by
  cases p <;> assumption

@[simp] theorem setMaster_pending (s : State) (p : MasterId) (m : MasterPort) : (s.setMaster p m).pending = s.pending := by
  cases p <;> rfl

@[simp] theorem setMaster_inside (s : State) (p : MasterId) (m : MasterPort) : (s.setMaster p m).inside = s.inside := by
  cases p <;> rfl

@[simp] theorem onMaster_pending (s : State) (p : MasterId) (g : MasterPort → MasterPort) :
    (s.onMaster p g).pending = s.pending := by
  cases p <;> rfl

@[simp] theorem onMaster_inside (s : State) (p : MasterId) (g : MasterPort → MasterPort) :
    (s.onMaster p g).inside = s.inside := by
  cases p <;> rfl

@[simp] theorem setMaster_resetAsserted (s : State) (p : MasterId) (m : MasterPort) : (s.setMaster p m).resetAsserted = s.resetAsserted := by
  cases p <;> rfl

@[simp] theorem onMaster_resetAsserted (s : State) (p : MasterId) (g : MasterPort → MasterPort) :
    (s.onMaster p g).resetAsserted = s.resetAsserted := by
  cases p <;> rfl

@[simp] theorem setMaster_bitRate (s : State) (p : MasterId) (m : MasterPort) : (s.setMaster p m).bitRate = s.bitRate := by
  cases p <;> rfl

@[simp] theorem onMaster_bitRate (s : State) (p : MasterId) (g : MasterPort → MasterPort) :
    (s.onMaster p g).bitRate = s.bitRate := by
  cases p <;> rfl

@[simp] theorem setMaster_front (s : State) (p : MasterId) (m : MasterPort) : (s.setMaster p m).front = s.front := by
  cases p <;> rfl

@[simp] theorem onMaster_front (s : State) (p : MasterId) (g : MasterPort → MasterPort) :
    (s.onMaster p g).front = s.front := by
  cases p <;> rfl

@[simp] theorem setMaster_rear (s : State) (p : MasterId) (m : MasterPort) : (s.setMaster p m).rear = s.rear := by
  cases p <;> rfl

@[simp] theorem onMaster_rear (s : State) (p : MasterId) (g : MasterPort → MasterPort) :
    (s.onMaster p g).rear = s.rear := by
  cases p <;> rfl

@[simp] theorem setMaster_table (s : State) (p : MasterId) (m : MasterPort) : (s.setMaster p m).table = s.table := by
  cases p <;> rfl

@[simp] theorem onMaster_table (s : State) (p : MasterId) (g : MasterPort → MasterPort) :
    (s.onMaster p g).table = s.table := by
  cases p <;> rfl

@[simp] theorem setMaster_lastBands (s : State) (p : MasterId) (m : MasterPort) : (s.setMaster p m).lastBands = s.lastBands := by
  cases p <;> rfl

@[simp] theorem onMaster_lastBands (s : State) (p : MasterId) (g : MasterPort → MasterPort) :
    (s.onMaster p g).lastBands = s.lastBands := by
  cases p <;> rfl

@[simp] theorem setMaster_map (s : State) (p : MasterId) (m : MasterPort) : (s.setMaster p m).map = s.map := by
  cases p <;> rfl

@[simp] theorem onMaster_map (s : State) (p : MasterId) (g : MasterPort → MasterPort) :
    (s.onMaster p g).map = s.map := by
  cases p <;> rfl

@[simp] theorem setMaster_liveShare (s : State) (p : MasterId) (m : MasterPort) : (s.setMaster p m).liveShare = s.liveShare := by
  cases p <;> rfl

@[simp] theorem onMaster_liveShare (s : State) (p : MasterId) (g : MasterPort → MasterPort) :
    (s.onMaster p g).liveShare = s.liveShare := by
  cases p <;> rfl

@[simp] theorem setMaster_forced (s : State) (p : MasterId) (m : MasterPort) : (s.setMaster p m).forced = s.forced := by
  cases p <;> rfl

@[simp] theorem onMaster_forced (s : State) (p : MasterId) (g : MasterPort → MasterPort) :
    (s.onMaster p g).forced = s.forced := by
  cases p <;> rfl

@[simp] theorem setMaster_lastGoverning (s : State) (p : MasterId) (m : MasterPort) : (s.setMaster p m).lastGoverning = s.lastGoverning := by
  cases p <;> rfl

@[simp] theorem onMaster_lastGoverning (s : State) (p : MasterId) (g : MasterPort → MasterPort) :
    (s.onMaster p g).lastGoverning = s.lastGoverning := by
  cases p <;> rfl

@[simp] theorem setMaster_holds (s : State) (p : MasterId) (m : MasterPort) : (s.setMaster p m).holds = s.holds := by
  cases p <;> rfl

@[simp] theorem onMaster_holds (s : State) (p : MasterId) (g : MasterPort → MasterPort) :
    (s.onMaster p g).holds = s.holds := by
  cases p <;> rfl

@[simp] theorem setMaster_alloc (s : State) (p : MasterId) (m : MasterPort) : (s.setMaster p m).alloc = s.alloc := by
  cases p <;> rfl

@[simp] theorem onMaster_alloc (s : State) (p : MasterId) (g : MasterPort → MasterPort) :
    (s.onMaster p g).alloc = s.alloc := by
  cases p <;> rfl

@[simp] theorem setMaster_config (s : State) (p : MasterId) (m : MasterPort) : (s.setMaster p m).config = s.config := by
  cases p <;> rfl

@[simp] theorem onMaster_config (s : State) (p : MasterId) (g : MasterPort → MasterPort) :
    (s.onMaster p g).config = s.config := by
  cases p <;> rfl

@[simp] theorem setMaster_axle (s : State) (p : MasterId) (m : MasterPort) (a : AxleId) :
    (s.setMaster p m).axle a = s.axle a := by
  cases p <;> cases a <;> rfl

@[simp] theorem onMaster_axle (s : State) (p : MasterId) (g : MasterPort → MasterPort) (a : AxleId) :
    (s.onMaster p g).axle a = s.axle a := by
  cases p <;> cases a <;> rfl

@[simp] theorem onMaster_demand_demandPort (s : State) (g : MasterPort → MasterPort) :
    (s.onMaster .demand g).demandPort = g s.demandPort := rfl

@[simp] theorem onMaster_demand_stabilityPort (s : State) (g : MasterPort → MasterPort) :
    (s.onMaster .demand g).stabilityPort = s.stabilityPort := rfl

@[simp] theorem onMaster_stability_demandPort (s : State) (g : MasterPort → MasterPort) :
    (s.onMaster .stability g).demandPort = s.demandPort := rfl

@[simp] theorem onMaster_stability_stabilityPort (s : State) (g : MasterPort → MasterPort) :
    (s.onMaster .stability g).stabilityPort = g s.stabilityPort := rfl

/-! ## An axle supervisor replaced or changed -/

@[simp] theorem axle_setAxle (s : State) (a : AxleId) (u : AxleUnit) : (s.setAxle a u).axle a = u := by
  cases a <;> rfl

@[simp] theorem axle_setAxle_other (s : State) (a : AxleId) (u : AxleUnit) :
    (s.setAxle a u).axle a.other = s.axle a.other := by
  cases a <;> rfl

@[simp] theorem axle_onAxle (s : State) (a : AxleId) (g : AxleUnit → AxleUnit) :
    (s.onAxle a g).axle a = g (s.axle a) := by
  cases a <;> rfl

@[simp] theorem axle_onAxle_other (s : State) (a : AxleId) (g : AxleUnit → AxleUnit) :
    (s.onAxle a g).axle a.other = s.axle a.other := by
  cases a <;> rfl

theorem axle_onAxle_of_ne (s : State) {a b : AxleId} (h : b ≠ a) (g : AxleUnit → AxleUnit) :
    (s.onAxle a g).axle b = s.axle b := by
  cases a <;> cases b <;> first | rfl | exact absurd rfl h

@[simp] theorem setAxle_pending (s : State) (a : AxleId) (u : AxleUnit) : (s.setAxle a u).pending = s.pending := by
  cases a <;> rfl

@[simp] theorem setAxle_inside (s : State) (a : AxleId) (u : AxleUnit) : (s.setAxle a u).inside = s.inside := by
  cases a <;> rfl

@[simp] theorem onAxle_pending (s : State) (a : AxleId) (g : AxleUnit → AxleUnit) : (s.onAxle a g).pending = s.pending := by
  cases a <;> rfl

@[simp] theorem onAxle_inside (s : State) (a : AxleId) (g : AxleUnit → AxleUnit) : (s.onAxle a g).inside = s.inside := by
  cases a <;> rfl

@[simp] theorem setAxle_resetAsserted (s : State) (a : AxleId) (u : AxleUnit) : (s.setAxle a u).resetAsserted = s.resetAsserted := by
  cases a <;> rfl

@[simp] theorem onAxle_resetAsserted (s : State) (a : AxleId) (g : AxleUnit → AxleUnit) : (s.onAxle a g).resetAsserted = s.resetAsserted := by
  cases a <;> rfl

@[simp] theorem setAxle_bitRate (s : State) (a : AxleId) (u : AxleUnit) : (s.setAxle a u).bitRate = s.bitRate := by
  cases a <;> rfl

@[simp] theorem onAxle_bitRate (s : State) (a : AxleId) (g : AxleUnit → AxleUnit) : (s.onAxle a g).bitRate = s.bitRate := by
  cases a <;> rfl

@[simp] theorem setAxle_demandPort (s : State) (a : AxleId) (u : AxleUnit) : (s.setAxle a u).demandPort = s.demandPort := by
  cases a <;> rfl

@[simp] theorem onAxle_demandPort (s : State) (a : AxleId) (g : AxleUnit → AxleUnit) : (s.onAxle a g).demandPort = s.demandPort := by
  cases a <;> rfl

@[simp] theorem setAxle_stabilityPort (s : State) (a : AxleId) (u : AxleUnit) : (s.setAxle a u).stabilityPort = s.stabilityPort := by
  cases a <;> rfl

@[simp] theorem onAxle_stabilityPort (s : State) (a : AxleId) (g : AxleUnit → AxleUnit) : (s.onAxle a g).stabilityPort = s.stabilityPort := by
  cases a <;> rfl

@[simp] theorem setAxle_table (s : State) (a : AxleId) (u : AxleUnit) : (s.setAxle a u).table = s.table := by
  cases a <;> rfl

@[simp] theorem onAxle_table (s : State) (a : AxleId) (g : AxleUnit → AxleUnit) : (s.onAxle a g).table = s.table := by
  cases a <;> rfl

@[simp] theorem setAxle_lastBands (s : State) (a : AxleId) (u : AxleUnit) : (s.setAxle a u).lastBands = s.lastBands := by
  cases a <;> rfl

@[simp] theorem onAxle_lastBands (s : State) (a : AxleId) (g : AxleUnit → AxleUnit) : (s.onAxle a g).lastBands = s.lastBands := by
  cases a <;> rfl

@[simp] theorem setAxle_map (s : State) (a : AxleId) (u : AxleUnit) : (s.setAxle a u).map = s.map := by
  cases a <;> rfl

@[simp] theorem onAxle_map (s : State) (a : AxleId) (g : AxleUnit → AxleUnit) : (s.onAxle a g).map = s.map := by
  cases a <;> rfl

@[simp] theorem setAxle_liveShare (s : State) (a : AxleId) (u : AxleUnit) : (s.setAxle a u).liveShare = s.liveShare := by
  cases a <;> rfl

@[simp] theorem onAxle_liveShare (s : State) (a : AxleId) (g : AxleUnit → AxleUnit) : (s.onAxle a g).liveShare = s.liveShare := by
  cases a <;> rfl

@[simp] theorem setAxle_forced (s : State) (a : AxleId) (u : AxleUnit) : (s.setAxle a u).forced = s.forced := by
  cases a <;> rfl

@[simp] theorem onAxle_forced (s : State) (a : AxleId) (g : AxleUnit → AxleUnit) : (s.onAxle a g).forced = s.forced := by
  cases a <;> rfl

@[simp] theorem setAxle_lastGoverning (s : State) (a : AxleId) (u : AxleUnit) : (s.setAxle a u).lastGoverning = s.lastGoverning := by
  cases a <;> rfl

@[simp] theorem onAxle_lastGoverning (s : State) (a : AxleId) (g : AxleUnit → AxleUnit) : (s.onAxle a g).lastGoverning = s.lastGoverning := by
  cases a <;> rfl

@[simp] theorem setAxle_holds (s : State) (a : AxleId) (u : AxleUnit) : (s.setAxle a u).holds = s.holds := by
  cases a <;> rfl

@[simp] theorem onAxle_holds (s : State) (a : AxleId) (g : AxleUnit → AxleUnit) : (s.onAxle a g).holds = s.holds := by
  cases a <;> rfl

@[simp] theorem setAxle_alloc (s : State) (a : AxleId) (u : AxleUnit) : (s.setAxle a u).alloc = s.alloc := by
  cases a <;> rfl

@[simp] theorem onAxle_alloc (s : State) (a : AxleId) (g : AxleUnit → AxleUnit) : (s.onAxle a g).alloc = s.alloc := by
  cases a <;> rfl

@[simp] theorem setAxle_config (s : State) (a : AxleId) (u : AxleUnit) : (s.setAxle a u).config = s.config := by
  cases a <;> rfl

@[simp] theorem onAxle_config (s : State) (a : AxleId) (g : AxleUnit → AxleUnit) : (s.onAxle a g).config = s.config := by
  cases a <;> rfl

@[simp] theorem setAxle_master (s : State) (a : AxleId) (u : AxleUnit) (p : MasterId) :
    (s.setAxle a u).master p = s.master p := by
  cases a <;> cases p <;> rfl

@[simp] theorem onAxle_master (s : State) (a : AxleId) (g : AxleUnit → AxleUnit) (p : MasterId) :
    (s.onAxle a g).master p = s.master p := by
  cases a <;> cases p <;> rfl

@[simp] theorem onAxle_front_front (s : State) (g : AxleUnit → AxleUnit) : (s.onAxle .front g).front = g s.front := rfl

@[simp] theorem onAxle_front_rear (s : State) (g : AxleUnit → AxleUnit) : (s.onAxle .front g).rear = s.rear := rfl

@[simp] theorem onAxle_rear_front (s : State) (g : AxleUnit → AxleUnit) : (s.onAxle .rear g).front = s.front := rfl

@[simp] theorem onAxle_rear_rear (s : State) (g : AxleUnit → AxleUnit) : (s.onAxle .rear g).rear = g s.rear := rfl

/-! ## Receivers and link states -/

@[simp] theorem setReceiver_pending (s : State) (l : Link) (r : Receiver) : (s.setReceiver l r).pending = s.pending := by
  rcases l with p | a <;> simp [State.setReceiver]

@[simp] theorem setReceiver_inside (s : State) (l : Link) (r : Receiver) : (s.setReceiver l r).inside = s.inside := by
  rcases l with p | a <;> simp [State.setReceiver]

@[simp] theorem setReceiver_resetAsserted (s : State) (l : Link) (r : Receiver) : (s.setReceiver l r).resetAsserted = s.resetAsserted := by
  rcases l with p | a <;> simp [State.setReceiver]

@[simp] theorem setReceiver_bitRate (s : State) (l : Link) (r : Receiver) : (s.setReceiver l r).bitRate = s.bitRate := by
  rcases l with p | a <;> simp [State.setReceiver]

@[simp] theorem setReceiver_table (s : State) (l : Link) (r : Receiver) : (s.setReceiver l r).table = s.table := by
  rcases l with p | a <;> simp [State.setReceiver]

@[simp] theorem setReceiver_lastBands (s : State) (l : Link) (r : Receiver) : (s.setReceiver l r).lastBands = s.lastBands := by
  rcases l with p | a <;> simp [State.setReceiver]

@[simp] theorem setReceiver_map (s : State) (l : Link) (r : Receiver) : (s.setReceiver l r).map = s.map := by
  rcases l with p | a <;> simp [State.setReceiver]

@[simp] theorem setReceiver_liveShare (s : State) (l : Link) (r : Receiver) : (s.setReceiver l r).liveShare = s.liveShare := by
  rcases l with p | a <;> simp [State.setReceiver]

@[simp] theorem setReceiver_forced (s : State) (l : Link) (r : Receiver) : (s.setReceiver l r).forced = s.forced := by
  rcases l with p | a <;> simp [State.setReceiver]

@[simp] theorem setReceiver_lastGoverning (s : State) (l : Link) (r : Receiver) : (s.setReceiver l r).lastGoverning = s.lastGoverning := by
  rcases l with p | a <;> simp [State.setReceiver]

@[simp] theorem setReceiver_holds (s : State) (l : Link) (r : Receiver) : (s.setReceiver l r).holds = s.holds := by
  rcases l with p | a <;> simp [State.setReceiver]

@[simp] theorem setReceiver_alloc (s : State) (l : Link) (r : Receiver) : (s.setReceiver l r).alloc = s.alloc := by
  rcases l with p | a <;> simp [State.setReceiver]

@[simp] theorem setReceiver_config (s : State) (l : Link) (r : Receiver) : (s.setReceiver l r).config = s.config := by
  rcases l with p | a <;> simp [State.setReceiver]

@[simp] theorem setLink_pending (s : State) (l : Link) (x : LinkState) : (s.setLink l x).pending = s.pending := by
  rcases l with p | a <;> simp [State.setLink]

@[simp] theorem setLink_inside (s : State) (l : Link) (x : LinkState) : (s.setLink l x).inside = s.inside := by
  rcases l with p | a <;> simp [State.setLink]

@[simp] theorem setLink_resetAsserted (s : State) (l : Link) (x : LinkState) : (s.setLink l x).resetAsserted = s.resetAsserted := by
  rcases l with p | a <;> simp [State.setLink]

@[simp] theorem setLink_bitRate (s : State) (l : Link) (x : LinkState) : (s.setLink l x).bitRate = s.bitRate := by
  rcases l with p | a <;> simp [State.setLink]

@[simp] theorem setLink_table (s : State) (l : Link) (x : LinkState) : (s.setLink l x).table = s.table := by
  rcases l with p | a <;> simp [State.setLink]

@[simp] theorem setLink_lastBands (s : State) (l : Link) (x : LinkState) : (s.setLink l x).lastBands = s.lastBands := by
  rcases l with p | a <;> simp [State.setLink]

@[simp] theorem setLink_map (s : State) (l : Link) (x : LinkState) : (s.setLink l x).map = s.map := by
  rcases l with p | a <;> simp [State.setLink]

@[simp] theorem setLink_liveShare (s : State) (l : Link) (x : LinkState) : (s.setLink l x).liveShare = s.liveShare := by
  rcases l with p | a <;> simp [State.setLink]

@[simp] theorem setLink_forced (s : State) (l : Link) (x : LinkState) : (s.setLink l x).forced = s.forced := by
  rcases l with p | a <;> simp [State.setLink]

@[simp] theorem setLink_lastGoverning (s : State) (l : Link) (x : LinkState) : (s.setLink l x).lastGoverning = s.lastGoverning := by
  rcases l with p | a <;> simp [State.setLink]

@[simp] theorem setLink_holds (s : State) (l : Link) (x : LinkState) : (s.setLink l x).holds = s.holds := by
  rcases l with p | a <;> simp [State.setLink]

@[simp] theorem setLink_alloc (s : State) (l : Link) (x : LinkState) : (s.setLink l x).alloc = s.alloc := by
  rcases l with p | a <;> simp [State.setLink]

@[simp] theorem setLink_config (s : State) (l : Link) (x : LinkState) : (s.setLink l x).config = s.config := by
  rcases l with p | a <;> simp [State.setLink]

@[simp] theorem receiverOf_setReceiver (s : State) (l : Link) (r : Receiver) : (s.setReceiver l r).receiverOf l = r := by
  rcases l with p | a <;> simp [State.setReceiver, State.receiverOf]

@[simp] theorem linkOf_setReceiver (s : State) (l k : Link) (r : Receiver) : (s.setReceiver l r).linkOf k = s.linkOf k := by
  rcases l with (_ | _) | (_ | _) <;> rcases k with (_ | _) | (_ | _) <;> rfl

@[simp] theorem linkOf_setLink (s : State) (l : Link) (x : LinkState) : (s.setLink l x).linkOf l = x := by
  rcases l with p | a <;> simp [State.setLink, State.linkOf]

/-! ## Alert units -/

@[simp] theorem master_onAlert (s : State) (p : MasterId) (g : AlertUnit → AlertUnit) :
    (s.onAlert p g).master p = { s.master p with alert := g (s.master p).alert } := by
  simp [State.onAlert]

@[simp] theorem master_onAlert_other (s : State) (p : MasterId) (g : AlertUnit → AlertUnit) :
    (s.onAlert p g).master p.other = s.master p.other := by
  simp [State.onAlert]

@[simp] theorem onAlert_pending (s : State) (p : MasterId) (g : AlertUnit → AlertUnit) : (s.onAlert p g).pending = s.pending := by
  simp [State.onAlert]

@[simp] theorem onAlert_inside (s : State) (p : MasterId) (g : AlertUnit → AlertUnit) : (s.onAlert p g).inside = s.inside := by
  simp [State.onAlert]

@[simp] theorem raise_pending (s : State) (p : MasterId) (f : EventFlag) : (raise p f s).pending = s.pending := by
  simp [raise]

@[simp] theorem raise_inside (s : State) (p : MasterId) (f : EventFlag) : (raise p f s).inside = s.inside := by
  simp [raise]

@[simp] theorem raiseBoth_pending (s : State) (f : EventFlag) : (raiseBoth f s).pending = s.pending := by
  simp [raiseBoth]

@[simp] theorem raiseBoth_inside (s : State) (f : EventFlag) : (raiseBoth f s).inside = s.inside := by
  simp [raiseBoth]

@[simp] theorem raiseIf_pending (s : State) (c : Bool) (p : MasterId) (f : EventFlag) : (raiseIf c p f s).pending = s.pending := by
  cases c <;> simp [raiseIf]

@[simp] theorem raiseIf_inside (s : State) (c : Bool) (p : MasterId) (f : EventFlag) : (raiseIf c p f s).inside = s.inside := by
  cases c <;> simp [raiseIf]

@[simp] theorem raiseBothIf_pending (s : State) (c : Bool) (f : EventFlag) : (raiseBothIf c f s).pending = s.pending := by
  cases c <;> simp [raiseBothIf]

@[simp] theorem raiseBothIf_inside (s : State) (c : Bool) (f : EventFlag) : (raiseBothIf c f s).inside = s.inside := by
  cases c <;> simp [raiseBothIf]

@[simp] theorem onAlert_resetAsserted (s : State) (p : MasterId) (g : AlertUnit → AlertUnit) : (s.onAlert p g).resetAsserted = s.resetAsserted := by
  simp [State.onAlert]

@[simp] theorem raise_resetAsserted (s : State) (p : MasterId) (f : EventFlag) : (raise p f s).resetAsserted = s.resetAsserted := by
  simp [raise]

@[simp] theorem raiseBoth_resetAsserted (s : State) (f : EventFlag) : (raiseBoth f s).resetAsserted = s.resetAsserted := by
  simp [raiseBoth]

@[simp] theorem raiseIf_resetAsserted (s : State) (c : Bool) (p : MasterId) (f : EventFlag) : (raiseIf c p f s).resetAsserted = s.resetAsserted := by
  cases c <;> simp [raiseIf]

@[simp] theorem raiseBothIf_resetAsserted (s : State) (c : Bool) (f : EventFlag) : (raiseBothIf c f s).resetAsserted = s.resetAsserted := by
  cases c <;> simp [raiseBothIf]

@[simp] theorem onAlert_bitRate (s : State) (p : MasterId) (g : AlertUnit → AlertUnit) : (s.onAlert p g).bitRate = s.bitRate := by
  simp [State.onAlert]

@[simp] theorem raise_bitRate (s : State) (p : MasterId) (f : EventFlag) : (raise p f s).bitRate = s.bitRate := by
  simp [raise]

@[simp] theorem raiseBoth_bitRate (s : State) (f : EventFlag) : (raiseBoth f s).bitRate = s.bitRate := by
  simp [raiseBoth]

@[simp] theorem raiseIf_bitRate (s : State) (c : Bool) (p : MasterId) (f : EventFlag) : (raiseIf c p f s).bitRate = s.bitRate := by
  cases c <;> simp [raiseIf]

@[simp] theorem raiseBothIf_bitRate (s : State) (c : Bool) (f : EventFlag) : (raiseBothIf c f s).bitRate = s.bitRate := by
  cases c <;> simp [raiseBothIf]

@[simp] theorem onAlert_front (s : State) (p : MasterId) (g : AlertUnit → AlertUnit) : (s.onAlert p g).front = s.front := by
  simp [State.onAlert]

@[simp] theorem raise_front (s : State) (p : MasterId) (f : EventFlag) : (raise p f s).front = s.front := by
  simp [raise]

@[simp] theorem raiseBoth_front (s : State) (f : EventFlag) : (raiseBoth f s).front = s.front := by
  simp [raiseBoth]

@[simp] theorem raiseIf_front (s : State) (c : Bool) (p : MasterId) (f : EventFlag) : (raiseIf c p f s).front = s.front := by
  cases c <;> simp [raiseIf]

@[simp] theorem raiseBothIf_front (s : State) (c : Bool) (f : EventFlag) : (raiseBothIf c f s).front = s.front := by
  cases c <;> simp [raiseBothIf]

@[simp] theorem onAlert_rear (s : State) (p : MasterId) (g : AlertUnit → AlertUnit) : (s.onAlert p g).rear = s.rear := by
  simp [State.onAlert]

@[simp] theorem raise_rear (s : State) (p : MasterId) (f : EventFlag) : (raise p f s).rear = s.rear := by
  simp [raise]

@[simp] theorem raiseBoth_rear (s : State) (f : EventFlag) : (raiseBoth f s).rear = s.rear := by
  simp [raiseBoth]

@[simp] theorem raiseIf_rear (s : State) (c : Bool) (p : MasterId) (f : EventFlag) : (raiseIf c p f s).rear = s.rear := by
  cases c <;> simp [raiseIf]

@[simp] theorem raiseBothIf_rear (s : State) (c : Bool) (f : EventFlag) : (raiseBothIf c f s).rear = s.rear := by
  cases c <;> simp [raiseBothIf]

@[simp] theorem onAlert_table (s : State) (p : MasterId) (g : AlertUnit → AlertUnit) : (s.onAlert p g).table = s.table := by
  simp [State.onAlert]

@[simp] theorem raise_table (s : State) (p : MasterId) (f : EventFlag) : (raise p f s).table = s.table := by
  simp [raise]

@[simp] theorem raiseBoth_table (s : State) (f : EventFlag) : (raiseBoth f s).table = s.table := by
  simp [raiseBoth]

@[simp] theorem raiseIf_table (s : State) (c : Bool) (p : MasterId) (f : EventFlag) : (raiseIf c p f s).table = s.table := by
  cases c <;> simp [raiseIf]

@[simp] theorem raiseBothIf_table (s : State) (c : Bool) (f : EventFlag) : (raiseBothIf c f s).table = s.table := by
  cases c <;> simp [raiseBothIf]

@[simp] theorem onAlert_lastBands (s : State) (p : MasterId) (g : AlertUnit → AlertUnit) : (s.onAlert p g).lastBands = s.lastBands := by
  simp [State.onAlert]

@[simp] theorem raise_lastBands (s : State) (p : MasterId) (f : EventFlag) : (raise p f s).lastBands = s.lastBands := by
  simp [raise]

@[simp] theorem raiseBoth_lastBands (s : State) (f : EventFlag) : (raiseBoth f s).lastBands = s.lastBands := by
  simp [raiseBoth]

@[simp] theorem raiseIf_lastBands (s : State) (c : Bool) (p : MasterId) (f : EventFlag) : (raiseIf c p f s).lastBands = s.lastBands := by
  cases c <;> simp [raiseIf]

@[simp] theorem raiseBothIf_lastBands (s : State) (c : Bool) (f : EventFlag) : (raiseBothIf c f s).lastBands = s.lastBands := by
  cases c <;> simp [raiseBothIf]

@[simp] theorem onAlert_map (s : State) (p : MasterId) (g : AlertUnit → AlertUnit) : (s.onAlert p g).map = s.map := by
  simp [State.onAlert]

@[simp] theorem raise_map (s : State) (p : MasterId) (f : EventFlag) : (raise p f s).map = s.map := by
  simp [raise]

@[simp] theorem raiseBoth_map (s : State) (f : EventFlag) : (raiseBoth f s).map = s.map := by
  simp [raiseBoth]

@[simp] theorem raiseIf_map (s : State) (c : Bool) (p : MasterId) (f : EventFlag) : (raiseIf c p f s).map = s.map := by
  cases c <;> simp [raiseIf]

@[simp] theorem raiseBothIf_map (s : State) (c : Bool) (f : EventFlag) : (raiseBothIf c f s).map = s.map := by
  cases c <;> simp [raiseBothIf]

@[simp] theorem onAlert_liveShare (s : State) (p : MasterId) (g : AlertUnit → AlertUnit) : (s.onAlert p g).liveShare = s.liveShare := by
  simp [State.onAlert]

@[simp] theorem raise_liveShare (s : State) (p : MasterId) (f : EventFlag) : (raise p f s).liveShare = s.liveShare := by
  simp [raise]

@[simp] theorem raiseBoth_liveShare (s : State) (f : EventFlag) : (raiseBoth f s).liveShare = s.liveShare := by
  simp [raiseBoth]

@[simp] theorem raiseIf_liveShare (s : State) (c : Bool) (p : MasterId) (f : EventFlag) : (raiseIf c p f s).liveShare = s.liveShare := by
  cases c <;> simp [raiseIf]

@[simp] theorem raiseBothIf_liveShare (s : State) (c : Bool) (f : EventFlag) : (raiseBothIf c f s).liveShare = s.liveShare := by
  cases c <;> simp [raiseBothIf]

@[simp] theorem onAlert_forced (s : State) (p : MasterId) (g : AlertUnit → AlertUnit) : (s.onAlert p g).forced = s.forced := by
  simp [State.onAlert]

@[simp] theorem raise_forced (s : State) (p : MasterId) (f : EventFlag) : (raise p f s).forced = s.forced := by
  simp [raise]

@[simp] theorem raiseBoth_forced (s : State) (f : EventFlag) : (raiseBoth f s).forced = s.forced := by
  simp [raiseBoth]

@[simp] theorem raiseIf_forced (s : State) (c : Bool) (p : MasterId) (f : EventFlag) : (raiseIf c p f s).forced = s.forced := by
  cases c <;> simp [raiseIf]

@[simp] theorem raiseBothIf_forced (s : State) (c : Bool) (f : EventFlag) : (raiseBothIf c f s).forced = s.forced := by
  cases c <;> simp [raiseBothIf]

@[simp] theorem onAlert_lastGoverning (s : State) (p : MasterId) (g : AlertUnit → AlertUnit) : (s.onAlert p g).lastGoverning = s.lastGoverning := by
  simp [State.onAlert]

@[simp] theorem raise_lastGoverning (s : State) (p : MasterId) (f : EventFlag) : (raise p f s).lastGoverning = s.lastGoverning := by
  simp [raise]

@[simp] theorem raiseBoth_lastGoverning (s : State) (f : EventFlag) : (raiseBoth f s).lastGoverning = s.lastGoverning := by
  simp [raiseBoth]

@[simp] theorem raiseIf_lastGoverning (s : State) (c : Bool) (p : MasterId) (f : EventFlag) : (raiseIf c p f s).lastGoverning = s.lastGoverning := by
  cases c <;> simp [raiseIf]

@[simp] theorem raiseBothIf_lastGoverning (s : State) (c : Bool) (f : EventFlag) : (raiseBothIf c f s).lastGoverning = s.lastGoverning := by
  cases c <;> simp [raiseBothIf]

@[simp] theorem onAlert_holds (s : State) (p : MasterId) (g : AlertUnit → AlertUnit) : (s.onAlert p g).holds = s.holds := by
  simp [State.onAlert]

@[simp] theorem raise_holds (s : State) (p : MasterId) (f : EventFlag) : (raise p f s).holds = s.holds := by
  simp [raise]

@[simp] theorem raiseBoth_holds (s : State) (f : EventFlag) : (raiseBoth f s).holds = s.holds := by
  simp [raiseBoth]

@[simp] theorem raiseIf_holds (s : State) (c : Bool) (p : MasterId) (f : EventFlag) : (raiseIf c p f s).holds = s.holds := by
  cases c <;> simp [raiseIf]

@[simp] theorem raiseBothIf_holds (s : State) (c : Bool) (f : EventFlag) : (raiseBothIf c f s).holds = s.holds := by
  cases c <;> simp [raiseBothIf]

@[simp] theorem onAlert_alloc (s : State) (p : MasterId) (g : AlertUnit → AlertUnit) : (s.onAlert p g).alloc = s.alloc := by
  simp [State.onAlert]

@[simp] theorem raise_alloc (s : State) (p : MasterId) (f : EventFlag) : (raise p f s).alloc = s.alloc := by
  simp [raise]

@[simp] theorem raiseBoth_alloc (s : State) (f : EventFlag) : (raiseBoth f s).alloc = s.alloc := by
  simp [raiseBoth]

@[simp] theorem raiseIf_alloc (s : State) (c : Bool) (p : MasterId) (f : EventFlag) : (raiseIf c p f s).alloc = s.alloc := by
  cases c <;> simp [raiseIf]

@[simp] theorem raiseBothIf_alloc (s : State) (c : Bool) (f : EventFlag) : (raiseBothIf c f s).alloc = s.alloc := by
  cases c <;> simp [raiseBothIf]

@[simp] theorem onAlert_config (s : State) (p : MasterId) (g : AlertUnit → AlertUnit) : (s.onAlert p g).config = s.config := by
  simp [State.onAlert]

@[simp] theorem raise_config (s : State) (p : MasterId) (f : EventFlag) : (raise p f s).config = s.config := by
  simp [raise]

@[simp] theorem raiseBoth_config (s : State) (f : EventFlag) : (raiseBoth f s).config = s.config := by
  simp [raiseBoth]

@[simp] theorem raiseIf_config (s : State) (c : Bool) (p : MasterId) (f : EventFlag) : (raiseIf c p f s).config = s.config := by
  cases c <;> simp [raiseIf]

@[simp] theorem raiseBothIf_config (s : State) (c : Bool) (f : EventFlag) : (raiseBothIf c f s).config = s.config := by
  cases c <;> simp [raiseBothIf]

@[simp] theorem onAlert_axle (s : State) (p : MasterId) (g : AlertUnit → AlertUnit) (a : AxleId) :
    (s.onAlert p g).axle a = s.axle a := by
  simp [State.onAlert]

@[simp] theorem raise_axle (s : State) (p : MasterId) (f : EventFlag) (a : AxleId) : (raise p f s).axle a = s.axle a := by
  simp [raise]

@[simp] theorem raiseBoth_axle (s : State) (f : EventFlag) (a : AxleId) : (raiseBoth f s).axle a = s.axle a := by
  simp [raiseBoth]

@[simp] theorem raiseIf_axle (s : State) (c : Bool) (p : MasterId) (f : EventFlag) (a : AxleId) :
    (raiseIf c p f s).axle a = s.axle a := by
  cases c <;> simp [raiseIf]

@[simp] theorem raiseBothIf_axle (s : State) (c : Bool) (f : EventFlag) (a : AxleId) :
    (raiseBothIf c f s).axle a = s.axle a := by
  cases c <;> simp [raiseBothIf]

end Sys2Proof.Machine
end

