-- ==== Sys2Proof/Laws/Flags.lean ====
section
/-! SUPPORT. What the flag operations do: a raise sets its own flag, keeps every other, and judges the ALERT line; no
operation but a clear lets a flag go. -/

namespace Sys2Proof.Machine

theorem EventFlag.position_lt (f : EventFlag) : f.position < 14 := by
  cases f <;> decide

theorem EventFlag.position_injective {f g : EventFlag} (h : f.position = g.position) : f = g := by
  cases f <;> cases g <;> first | rfl | exact absurd h (by decide)

@[simp] theorem AlertUnit.judge_flags (u : AlertUnit) : u.judge.flags = u.flags := rfl
@[simp] theorem AlertUnit.judge_masks (u : AlertUnit) : u.judge.masks = u.masks := rfl
@[simp] theorem AlertUnit.judge_mirrorEnable (u : AlertUnit) : u.judge.mirrorEnable = u.mirrorEnable := rfl
@[simp] theorem AlertUnit.judge_lastFault (u : AlertUnit) : u.judge.lastFault = u.lastFault := rfl
@[simp] theorem AlertUnit.judge_alertLine (u : AlertUnit) :
    u.judge.alertLine = (u.flags &&& ~~~u.masks != 0#16) := rfl

@[simp] theorem AlertUnit.raise_flags (f : EventFlag) (u : AlertUnit) : (u.raise f).flags = u.flags ||| f.bit := rfl
@[simp] theorem AlertUnit.raise_masks (f : EventFlag) (u : AlertUnit) : (u.raise f).masks = u.masks := rfl
@[simp] theorem AlertUnit.raise_mirrorEnable (f : EventFlag) (u : AlertUnit) :
    (u.raise f).mirrorEnable = u.mirrorEnable := rfl
@[simp] theorem AlertUnit.raise_lastFault (f : EventFlag) (u : AlertUnit) : (u.raise f).lastFault = u.lastFault := rfl
@[simp] theorem AlertUnit.raise_alertLine (f : EventFlag) (u : AlertUnit) :
    (u.raise f).alertLine = ((u.flags ||| f.bit) &&& ~~~u.masks != 0#16) := rfl

@[simp] theorem AlertUnit.clear_flags (u : AlertUnit) : u.clear.flags = 0#16 := rfl
@[simp] theorem AlertUnit.clear_masks (u : AlertUnit) : u.clear.masks = u.masks := rfl
@[simp] theorem AlertUnit.clear_mirrorEnable (u : AlertUnit) : u.clear.mirrorEnable = u.mirrorEnable := rfl
@[simp] theorem AlertUnit.clear_lastFault (u : AlertUnit) : u.clear.lastFault = none := rfl

/-- The flags after a raise: those set before, and the raised one. -/
theorem AlertUnit.isSet_raise (u : AlertUnit) (f g : EventFlag) :
    (u.raise f).isSet g = (u.isSet g || decide (f = g)) := by
  have hb : f.bit.getLsbD g.position = decide (f = g) := by
    cases f <;> cases g <;> decide
  simp [AlertUnit.isSet, BitVec.getLsbD_or, hb]

@[simp] theorem AlertUnit.isSet_raise_self (u : AlertUnit) (f : EventFlag) : (u.raise f).isSet f = true := by
  simp [isSet_raise]

theorem AlertUnit.isSet_raise_of_isSet {u : AlertUnit} {f g : EventFlag} (h : u.isSet g = true) :
    (u.raise f).isSet g = true := by
  simp [isSet_raise, h]

@[simp] theorem AlertUnit.isSet_clear (u : AlertUnit) (f : EventFlag) : u.clear.isSet f = false := by
  simp [isSet]

/-- The alert unit of a port after a raise at it. -/
@[simp] theorem master_raise (s : State) (p : MasterId) (f : EventFlag) :
    (raise p f s).master p = { s.master p with alert := (s.master p).alert.raise f } := by
  simp [raise]

@[simp] theorem master_raise_other (s : State) (p : MasterId) (f : EventFlag) :
    (raise p f s).master p.other = s.master p.other := by
  simp [raise]

/-- An event routed to both ports raises its flag in each (R168). -/
@[simp] theorem master_raiseBoth (s : State) (f : EventFlag) (p : MasterId) :
    (raiseBoth f s).master p = { s.master p with alert := (s.master p).alert.raise f } := by
  cases p <;> rfl

/-- A flag raised when a condition holds. -/
def AlertUnit.raiseWhen (c : Bool) (f : EventFlag) (u : AlertUnit) : AlertUnit :=
  if c then u.raise f else u

theorem AlertUnit.isSet_raiseWhen (u : AlertUnit) (c : Bool) (f g : EventFlag) :
    (u.raiseWhen c f).isSet g = (u.isSet g || (decide (f = g) && c)) := by
  cases c <;> simp [raiseWhen, isSet_raise]

@[simp] theorem AlertUnit.raiseWhen_masks (u : AlertUnit) (c : Bool) (f : EventFlag) :
    (u.raiseWhen c f).masks = u.masks := by cases c <;> simp [raiseWhen]
@[simp] theorem AlertUnit.raiseWhen_mirrorEnable (u : AlertUnit) (c : Bool) (f : EventFlag) :
    (u.raiseWhen c f).mirrorEnable = u.mirrorEnable := by cases c <;> simp [raiseWhen]
@[simp] theorem AlertUnit.raiseWhen_lastFault (u : AlertUnit) (c : Bool) (f : EventFlag) :
    (u.raiseWhen c f).lastFault = u.lastFault := by cases c <;> simp [raiseWhen]

theorem master_raiseBothIf (s : State) (c : Bool) (f : EventFlag) (p : MasterId) :
    (raiseBothIf c f s).master p = { s.master p with alert := (s.master p).alert.raiseWhen c f } := by
  cases c <;> simp [raiseBothIf, AlertUnit.raiseWhen]

theorem master_raiseIf (s : State) (c : Bool) (p : MasterId) (f : EventFlag) :
    (raiseIf c p f s).master p = { s.master p with alert := (s.master p).alert.raiseWhen c f } := by
  cases c <;> simp [raiseIf, AlertUnit.raiseWhen]

@[simp] theorem master_raiseIf_other (s : State) (c : Bool) (p : MasterId) (f : EventFlag) :
    (raiseIf c p f s).master p.other = s.master p.other := by
  cases c <;> simp [raiseIf]

end Sys2Proof.Machine
end

