-- ==== Sys2Proof/Laws/Ports.lean ====
section
/-! SUPPORT. What the operations on a master port do to its queues, lines and transmitter. -/

namespace Sys2Proof.Machine

@[simp] theorem MasterPort.judge_link (m : MasterPort) : m.judge.link = m.link := rfl
@[simp] theorem MasterPort.judge_receiver (m : MasterPort) : m.judge.receiver = m.receiver := rfl
@[simp] theorem MasterPort.judge_rxQueue (m : MasterPort) : m.judge.rxQueue = m.rxQueue := rfl
@[simp] theorem MasterPort.judge_replyQueue (m : MasterPort) : m.judge.replyQueue = m.replyQueue := rfl
@[simp] theorem MasterPort.judge_mirrorSlot (m : MasterPort) : m.judge.mirrorSlot = m.mirrorSlot := rfl
@[simp] theorem MasterPort.judge_tx (m : MasterPort) : m.judge.tx = m.tx := rfl
@[simp] theorem MasterPort.judge_alert (m : MasterPort) : m.judge.alert = m.alert := rfl
@[simp] theorem MasterPort.judge_outgoing (m : MasterPort) : m.judge.outgoing = m.outgoing := rfl

@[simp] theorem MasterPort.dequeue_rxQueue (m : MasterPort) : m.dequeue.rxQueue = m.rxQueue.tail := rfl
@[simp] theorem MasterPort.dequeue_replyQueue (m : MasterPort) : m.dequeue.replyQueue = m.replyQueue := rfl
@[simp] theorem MasterPort.dequeue_alert (m : MasterPort) : m.dequeue.alert = m.alert := rfl
@[simp] theorem MasterPort.dequeue_link (m : MasterPort) : m.dequeue.link = m.link := rfl
@[simp] theorem MasterPort.dequeue_receiver (m : MasterPort) : m.dequeue.receiver = m.receiver := rfl
@[simp] theorem MasterPort.dequeue_mirrorSlot (m : MasterPort) : m.dequeue.mirrorSlot = m.mirrorSlot := rfl
@[simp] theorem MasterPort.dequeue_tx (m : MasterPort) : m.dequeue.tx = m.tx := rfl
@[simp] theorem MasterPort.dequeue_outgoing (m : MasterPort) : m.dequeue.outgoing = m.outgoing := rfl

/-- What the arbiter can do: nothing, send the oldest reply, or send the mirror record (R167). -/
theorem MasterPort.arbitrate_cases (m : MasterPort) :
    m.arbitrate = m
      ∨ (∃ r rest, m.tx = .idle ∧ m.replyQueue = r :: rest
          ∧ m.arbitrate = ({ m with tx := .sending r false, replyQueue := rest }).judge)
      ∨ (∃ rec, m.tx = .idle ∧ m.replyQueue = [] ∧ m.mirrorSlot = some rec
          ∧ m.arbitrate = { m with tx := .sending rec.mirrorFrame false, mirrorSlot := none }) := by
  rcases htx : m.tx with _ | ⟨f, b⟩ | _
  · rcases hq : m.replyQueue with _ | ⟨r, rest⟩
    · rcases hm : m.mirrorSlot with _ | rec
      · left; simp [arbitrate, htx, hq, hm]
      · right; right; exact ⟨rec, rfl, rfl, rfl, by simp [arbitrate, htx, hq, hm]⟩
    · right; left; exact ⟨r, rest, rfl, rfl, by simp [arbitrate, htx, hq]⟩
  · left; simp [arbitrate, htx]
  · left; simp [arbitrate, htx]

@[simp] theorem MasterPort.arbitrate_link (m : MasterPort) : m.arbitrate.link = m.link := by
  obtain h | ⟨_, _, _, _, h⟩ | ⟨_, _, _, _, h⟩ := m.arbitrate_cases <;> simp [h]

@[simp] theorem MasterPort.arbitrate_receiver (m : MasterPort) : m.arbitrate.receiver = m.receiver := by
  obtain h | ⟨_, _, _, _, h⟩ | ⟨_, _, _, _, h⟩ := m.arbitrate_cases <;> simp [h]

@[simp] theorem MasterPort.arbitrate_rxQueue (m : MasterPort) : m.arbitrate.rxQueue = m.rxQueue := by
  obtain h | ⟨_, _, _, _, h⟩ | ⟨_, _, _, _, h⟩ := m.arbitrate_cases <;> simp [h]

@[simp] theorem MasterPort.arbitrate_alert (m : MasterPort) : m.arbitrate.alert = m.alert := by
  obtain h | ⟨_, _, _, _, h⟩ | ⟨_, _, _, _, h⟩ := m.arbitrate_cases <;> simp [h]

/-- With a reply to send, the arbiter neither loses nor reorders what leaves the port. -/
theorem MasterPort.arbitrate_outgoing {m : MasterPort} (h : m.replyQueue ≠ []) :
    m.arbitrate.outgoing = m.outgoing := by
  obtain e | ⟨r, rest, htx, hq, e⟩ | ⟨_, _, hq, _, _⟩ := m.arbitrate_cases
  · rw [e]
  · rw [e]; simp [outgoing, htx, hq]
  · exact absurd hq h

@[simp] theorem MasterPort.placeReply_link (m : MasterPort) (f : Frame) : (m.placeReply f).link = m.link := by
  simp [placeReply]

@[simp] theorem MasterPort.placeReply_receiver (m : MasterPort) (f : Frame) :
    (m.placeReply f).receiver = m.receiver := by
  simp [placeReply]

@[simp] theorem MasterPort.placeReply_rxQueue (m : MasterPort) (f : Frame) : (m.placeReply f).rxQueue = m.rxQueue := by
  simp [placeReply]

@[simp] theorem MasterPort.placeReply_alert (m : MasterPort) (f : Frame) : (m.placeReply f).alert = m.alert := by
  simp [placeReply]

/-- A reply leaves behind everything that its port has yet to send (R161). -/
theorem MasterPort.placeReply_outgoing (m : MasterPort) (f : Frame) :
    (m.placeReply f).outgoing = m.outgoing ++ [f] := by
  have h : ({ m with replyQueue := m.replyQueue ++ [f] } : MasterPort).judge.replyQueue ≠ [] := by simp
  rw [placeReply, arbitrate_outgoing h]
  rcases htx : m.tx with _ | ⟨g, b⟩ | _ <;> simp [outgoing, htx]

/-- The arbiter takes a waiting reply before the mirror record (R167). -/
theorem MasterPort.arbitrate_mirrorSlot {m : MasterPort} (h : m.replyQueue ≠ []) :
    m.arbitrate.mirrorSlot = m.mirrorSlot := by
  obtain e | ⟨r, rest, htx, hq, e⟩ | ⟨_, _, hq, _, _⟩ := m.arbitrate_cases
  · rw [e]
  · rw [e]; rfl
  · exact absurd hq h

/-- A mirror record in the slot waits while a reply is placed (R167). -/
@[simp] theorem MasterPort.placeReply_mirrorSlot (m : MasterPort) (f : Frame) :
    (m.placeReply f).mirrorSlot = m.mirrorSlot := by
  have h : ({ m with replyQueue := m.replyQueue ++ [f] } : MasterPort).judge.replyQueue ≠ [] := by simp
  rw [placeReply, arbitrate_mirrorSlot h]
  rfl

@[simp] theorem MasterPort.sendBreak_alert (m : MasterPort) : m.sendBreak.alert = m.alert := by
  rcases h : m.tx with _ | ⟨f, b⟩ | _ <;> simp [sendBreak, h]

@[simp] theorem MasterPort.sendBreak_link (m : MasterPort) : m.sendBreak.link = m.link := by
  rcases h : m.tx with _ | ⟨f, b⟩ | _ <;> simp [sendBreak, h]

@[simp] theorem MasterPort.sendBreak_receiver (m : MasterPort) : m.sendBreak.receiver = m.receiver := by
  rcases h : m.tx with _ | ⟨f, b⟩ | _ <;> simp [sendBreak, h]

@[simp] theorem MasterPort.sendBreak_rxQueue (m : MasterPort) : m.sendBreak.rxQueue = m.rxQueue := by
  rcases h : m.tx with _ | ⟨f, b⟩ | _ <;> simp [sendBreak, h]

@[simp] theorem MasterPort.sendBreak_replyQueue (m : MasterPort) : m.sendBreak.replyQueue = m.replyQueue := by
  rcases h : m.tx with _ | ⟨f, b⟩ | _ <;> simp [sendBreak, h]

@[simp] theorem MasterPort.sendBreak_outgoing (m : MasterPort) : m.sendBreak.outgoing = m.outgoing := by
  rcases h : m.tx with _ | ⟨f, b⟩ | _ <;> simp [sendBreak, outgoing, h]

@[simp] theorem MasterPort.mirrorHandoff_alert (m : MasterPort) (r : ResultRecord) :
    (m.mirrorHandoff r).alert = m.alert := by
  unfold mirrorHandoff; split <;> rfl

@[simp] theorem MasterPort.mirrorHandoff_link (m : MasterPort) (r : ResultRecord) :
    (m.mirrorHandoff r).link = m.link := by
  unfold mirrorHandoff; split <;> rfl

@[simp] theorem MasterPort.mirrorHandoff_receiver (m : MasterPort) (r : ResultRecord) :
    (m.mirrorHandoff r).receiver = m.receiver := by
  unfold mirrorHandoff; split <;> rfl

@[simp] theorem MasterPort.mirrorHandoff_rxQueue (m : MasterPort) (r : ResultRecord) :
    (m.mirrorHandoff r).rxQueue = m.rxQueue := by
  unfold mirrorHandoff; split <;> rfl

@[simp] theorem MasterPort.mirrorHandoff_replyQueue (m : MasterPort) (r : ResultRecord) :
    (m.mirrorHandoff r).replyQueue = m.replyQueue := by
  unfold mirrorHandoff; split <;> rfl

@[simp] theorem MasterPort.mirrorHandoff_tx (m : MasterPort) (r : ResultRecord) : (m.mirrorHandoff r).tx = m.tx := by
  unfold mirrorHandoff; split <;> rfl

@[simp] theorem MasterPort.mirrorHandoff_outgoing (m : MasterPort) (r : ResultRecord) :
    (m.mirrorHandoff r).outgoing = m.outgoing := by
  unfold mirrorHandoff; split <;> rfl

/-- What the end of a frame in transmission can do: nothing, start the break owed by a RESTART, or free the arbiter
(R145, R167). -/
theorem MasterPort.frameSent_cases (m : MasterPort) :
    m.frameSent = m ∨ m.frameSent = { m with tx := .breaking } ∨ m.frameSent = ({ m with tx := .idle }).arbitrate := by
  rcases h : m.tx with _ | ⟨f, b⟩ | _
  · simp [frameSent, h]
  · cases b <;> simp [frameSent, h]
  · simp [frameSent, h]

/-- What the end of a break can do: nothing, or free the arbiter (R182). -/
theorem MasterPort.breakEnded_cases (m : MasterPort) :
    m.breakEnded = m ∨ m.breakEnded = ({ m with tx := .idle }).arbitrate := by
  rcases h : m.tx with _ | ⟨f, b⟩ | _ <;> simp [breakEnded, h]

/-- A cut-off changes the transmitter alone (R171). -/
theorem MasterPort.cutOff_cases (m : MasterPort) :
    m.cutOff = m ∨ m.cutOff = { m with tx := .breaking } ∨ m.cutOff = { m with tx := .idle } := by
  rcases h : m.tx with _ | ⟨f, b⟩ | _
  · simp [cutOff, h]
  · cases b <;> simp [cutOff, h]
  · simp [cutOff, h]

end Sys2Proof.Machine
end

