-- ==== Sys2Proof/Laws/Decoder.lean ====
section
/-! SUPPORT. The taking of a request, said once: what it answers where the decoder takes the head frame, and that it
does nothing else (R159). -/

namespace Sys2Proof.Machine

theorem whileReleased_next {s : State} {k : State → State} (h : s.resetAsserted = false) :
    whileReleased s k = .next (k s) := by
  simp [whileReleased, h]

theorem whileReleased_asserted {s : State} {k : State → State} (h : s.resetAsserted = true) :
    whileReleased s k = .next s := by
  simp [whileReleased, h]

theorem replyTo_eq (f : Frame) (payload : List Byte) : replyTo f payload = ⟨replyKind f.kind, payload⟩ := rfl

theorem Ready.canTake {p : MasterId} {f : Frame} {s : State} (h : Ready p f s) : (s.master p).canTake = true := by
  obtain ⟨-, hq, hr⟩ := h
  rcases hx : (s.master p).rxQueue with _ | ⟨g, rest⟩
  · simp [hx] at hq
  · simp [MasterPort.canTake, hx, hr, Config.replyQueueSize]

/-- The decoder takes the head frame: its owner acts on the state with the frame removed, and its reply is placed. -/
theorem taking_ready {p : MasterId} {f : Frame} {s : State} {row : Instr}
    {owner : Frame → State → List Byte × State} (h : Ready p f s) (hrow : decodeRequest p f = row) :
    taking row p s owner = .next (answered p f (owner f (taken p s)).1 (owner f (taken p s)).2) := by
  have hc := h.canTake
  obtain ⟨hr, hq, -⟩ := h
  simp [taking, whileReleased_next hr, hq, hc, hrow, answered, taken, replyTo_eq]

/-- Everything a taking can do. -/
theorem taking_cases (row : Instr) (p : MasterId) (s : State) (owner : Frame → State → List Byte × State) :
    taking row p s owner = .next s
      ∨ ∃ f, Ready p f s ∧ decodeRequest p f = row
          ∧ taking row p s owner = .next (answered p f (owner f (taken p s)).1 (owner f (taken p s)).2) := by
  by_cases hr : s.resetAsserted = true
  · left; exact whileReleased_asserted hr
  · have hr : s.resetAsserted = false := by simpa using hr
    rcases hq : (s.master p).rxQueue.head? with _ | f
    · left; simp [taking, whileReleased_next hr, hq]
    · by_cases hc : ((s.master p).canTake && decide (decodeRequest p f = row)) = true
      · right
        have hrow : decodeRequest p f = row := by simpa using (Bool.and_eq_true_iff.mp hc).2
        have hroom : (s.master p).replyQueue.length < 4 := by
          have hx := (Bool.and_eq_true_iff.mp hc).1
          unfold MasterPort.canTake at hx
          exact of_decide_eq_true (Bool.and_eq_true_iff.mp hx).2
        exact ⟨f, ⟨hr, hq, hroom⟩, hrow, taking_ready ⟨hr, hq, hroom⟩ hrow⟩
      · left
        rw [taking, whileReleased_next hr]
        simp only [hq]
        rw [if_neg hc]

/-! ## The state once a frame has been taken: the receive queue of its port has lost its head, and nothing else changes
but HOLDOFF and the waiting-for-room marker -/

section Taken

variable (p q : MasterId) (s : State) (a : AxleId)

@[simp] theorem taken_pending : (taken p s).pending = s.pending := by simp [taken]
@[simp] theorem taken_inside : (taken p s).inside = s.inside := by simp [taken]
@[simp] theorem taken_resetAsserted : (taken p s).resetAsserted = s.resetAsserted := by simp [taken]
@[simp] theorem taken_bitRate : (taken p s).bitRate = s.bitRate := by simp [taken]
@[simp] theorem taken_front : (taken p s).front = s.front := by simp [taken]
@[simp] theorem taken_rear : (taken p s).rear = s.rear := by simp [taken]
@[simp] theorem taken_table : (taken p s).table = s.table := by simp [taken]
@[simp] theorem taken_lastBands : (taken p s).lastBands = s.lastBands := by simp [taken]
@[simp] theorem taken_map : (taken p s).map = s.map := by simp [taken]
@[simp] theorem taken_liveShare : (taken p s).liveShare = s.liveShare := by simp [taken]
@[simp] theorem taken_forced : (taken p s).forced = s.forced := by simp [taken]
@[simp] theorem taken_lastGoverning : (taken p s).lastGoverning = s.lastGoverning := by simp [taken]
@[simp] theorem taken_holds : (taken p s).holds = s.holds := by simp [taken]
@[simp] theorem taken_alloc : (taken p s).alloc = s.alloc := by simp [taken]
@[simp] theorem taken_config : (taken p s).config = s.config := by simp [taken]
@[simp] theorem taken_axle : (taken p s).axle a = s.axle a := by simp [taken]
@[simp] theorem taken_alert : ((taken p s).master q).alert = (s.master q).alert := by cases p <;> cases q <;> rfl
@[simp] theorem taken_link : ((taken p s).master q).link = (s.master q).link := by cases p <;> cases q <;> rfl
@[simp] theorem taken_tx : ((taken p s).master q).tx = (s.master q).tx := by cases p <;> cases q <;> rfl
@[simp] theorem taken_receiver : ((taken p s).master q).receiver = (s.master q).receiver := by
  cases p <;> cases q <;> rfl
@[simp] theorem taken_replyQueue : ((taken p s).master q).replyQueue = (s.master q).replyQueue := by
  cases p <;> cases q <;> rfl
@[simp] theorem taken_mirrorSlot : ((taken p s).master q).mirrorSlot = (s.master q).mirrorSlot := by
  cases p <;> cases q <;> rfl
@[simp] theorem taken_outgoing : ((taken p s).master q).outgoing = (s.master q).outgoing := by
  cases p <;> cases q <;> rfl
@[simp] theorem taken_rxQueue : ((taken p s).master p).rxQueue = (s.master p).rxQueue.tail := by
  cases p <;> rfl
@[simp] theorem taken_rxQueue_other : ((taken p s).master p.other).rxQueue = (s.master p.other).rxQueue := by
  cases p <;> rfl

end Taken

end Sys2Proof.Machine
end

