-- ==== Sys2Proof/Laws/Axles.lean ====
section
/-! SUPPORT. What the operations of an axle supervisor do (R99 to R120). -/

namespace Sys2Proof.Machine

/-- An idle transmitter on an UP link takes a waiting record; otherwise nothing changes (R101). -/
theorem AxleUnit.takePending_cases (u : AxleUnit) :
    u.takePending = u
      ∨ ∃ r, u.tx = .idle ∧ u.slot = some r ∧ u.link = .up
          ∧ u.takePending = { u with tx := .sending r false, slot := none } := by
  rcases ht : u.tx with _ | ⟨r, b⟩ | _
  · rcases hs : u.slot with _ | r
    · left; simp [takePending, ht, hs]
    · by_cases hl : u.link = .up
      · right; exact ⟨r, rfl, rfl, hl, by simp [takePending, ht, hs, hl]⟩
      · left; simp [takePending, ht, hs, hl]
  · left; simp [takePending, ht]
  · left; simp [takePending, ht]

@[simp] theorem AxleUnit.takePending_state (u : AxleUnit) : u.takePending.state = u.state := by
  obtain h | ⟨_, _, _, _, h⟩ := u.takePending_cases <;> simp [h]

@[simp] theorem AxleUnit.takePending_link (u : AxleUnit) : u.takePending.link = u.link := by
  obtain h | ⟨_, _, _, _, h⟩ := u.takePending_cases <;> simp [h]

@[simp] theorem AxleUnit.takePending_receiver (u : AxleUnit) : u.takePending.receiver = u.receiver := by
  obtain h | ⟨_, _, _, _, h⟩ := u.takePending_cases <;> simp [h]

@[simp] theorem AxleUnit.takePending_missCount (u : AxleUnit) : u.takePending.missCount = u.missCount := by
  obtain h | ⟨_, _, _, _, h⟩ := u.takePending_cases <;> simp [h]

@[simp] theorem AxleUnit.takePending_goodCount (u : AxleUnit) : u.takePending.goodCount = u.goodCount := by
  obtain h | ⟨_, _, _, _, h⟩ := u.takePending_cases <;> simp [h]

@[simp] theorem AxleUnit.takePending_outstanding (u : AxleUnit) : u.takePending.outstanding = u.outstanding := by
  obtain h | ⟨_, _, _, _, h⟩ := u.takePending_cases <;> simp [h]

@[simp] theorem AxleUnit.takePending_lastCommanded (u : AxleUnit) : u.takePending.lastCommanded = u.lastCommanded := by
  obtain h | ⟨_, _, _, _, h⟩ := u.takePending_cases <;> simp [h]

@[simp] theorem AxleUnit.takePending_lastDelivered (u : AxleUnit) : u.takePending.lastDelivered = u.lastDelivered := by
  obtain h | ⟨_, _, _, _, h⟩ := u.takePending_cases <;> simp [h]

@[simp] theorem AxleUnit.takePending_lastSpeed (u : AxleUnit) : u.takePending.lastSpeed = u.lastSpeed := by
  obtain h | ⟨_, _, _, _, h⟩ := u.takePending_cases <;> simp [h]

@[simp] theorem AxleUnit.takePending_window (u : AxleUnit) : u.takePending.window = u.window := by
  obtain h | ⟨_, _, _, _, h⟩ := u.takePending_cases <;> simp [h]

/-- Taking a record neither loses nor makes one. -/
theorem AxleUnit.mem_commands_takePending {u : AxleUnit} {r : CommandRecord} (h : r ∈ u.takePending.commands) :
    r ∈ u.commands := by
  obtain e | ⟨q, ht, hs, _, e⟩ := u.takePending_cases
  · rwa [e] at h
  · rw [e] at h
    simp only [commands, Option.toList_none, List.nil_append, List.mem_singleton] at h
    simp [commands, ht, hs, h]

@[simp] theorem CommandRecord.toStandby_mode (r : CommandRecord) : r.toStandby.mode = .standby := by
  rcases h : r.mode with _ | _ <;> simp [toStandby, h]

@[simp] theorem CommandRecord.toStandby_sequence (r : CommandRecord) : r.toStandby.sequence = r.sequence := by
  rcases h : r.mode with _ | _ <;> simp [toStandby, h]

@[simp] theorem CommandRecord.toStandby_ceiling (r : CommandRecord) : r.toStandby.ceiling = r.ceiling := by
  rcases h : r.mode with _ | _ <;> simp [toStandby, h]

@[simp] theorem CommandRecord.toStandby_floor (r : CommandRecord) : r.toStandby.floor = r.floor := by
  rcases h : r.mode with _ | _ <;> simp [toStandby, h]

/-- A sound record stays sound when it becomes a STANDBY record, whose torque is then 0 (R88, R117). -/
theorem CommandRecord.toStandby_torque {r : CommandRecord} (h : r.sound = true) : r.toStandby.torque = 0 := by
  rcases hm : r.mode with _ | _
  · simp [CommandRecord.sound, hm] at h
    simp [toStandby, hm, h]
  · simp [toStandby, hm]

theorem CommandRecord.toStandby_sound {r : CommandRecord} (h : r.sound = true) : r.toStandby.sound = true := by
  simp [CommandRecord.sound, r.toStandby_torque h]

/-- The hand-off of a record (R99 to R101, R103): the last commanded torque follows the screened record; on an UP link
that record is waiting or being sent, on another link it is gone. -/
theorem AxleUnit.handoff_spec (r : CommandRecord) (u : AxleUnit) :
    (u.handoff r).lastCommanded = (u.screen r).torque ∧ (u.handoff r).state = u.state ∧ (u.handoff r).link = u.link
      ∧ (u.handoff r).outstanding = u.outstanding ∧ (u.handoff r).window = u.window
      ∧ (u.handoff r).missCount = u.missCount ∧ (u.handoff r).goodCount = u.goodCount
      ∧ (u.handoff r).lastDelivered = u.lastDelivered ∧ (u.handoff r).lastSpeed = u.lastSpeed
      ∧ (u.handoff r).receiver = u.receiver
      ∧ (u.link = .up → u.tx = .idle → (u.handoff r).tx = .sending (u.screen r) false ∧ (u.handoff r).slot = none)
      ∧ (u.link = .up → u.tx ≠ .idle → (u.handoff r).tx = u.tx ∧ (u.handoff r).slot = some (u.screen r))
      ∧ (u.link ≠ .up → (u.handoff r).tx = u.tx ∧ (u.handoff r).slot = u.slot) := by
  by_cases hl : u.link = .up
  · rcases ht : u.tx with _ | ⟨q, b⟩ | _ <;> simp [handoff, hl, takePending, ht]
  · simp [handoff, hl]

/-- Entering OFFLINE (R116): with the axle OFFLINE already nothing changes; otherwise its record is reset, its inverter's
entries are removed and AXLE_DOWN is set in both sets. -/
theorem goOffline_cases (a : AxleId) (s : State) :
    ((s.axle a).state = .offline ∧ goOffline a s = s)
      ∨ ((s.axle a).state ≠ .offline
          ∧ goOffline a s = raiseBoth .axleDown (removeInverterClaims a (s.onAxle a AxleUnit.loseAxle))) := by
  by_cases h : (s.axle a).state = .offline
  · left; exact ⟨h, by simp [goOffline, h]⟩
  · right; exact ⟨h, by simp [goOffline, h]⟩

/-- Whatever it was, the axle is then OFFLINE. -/
@[simp] theorem goOffline_state (a : AxleId) (s : State) : ((goOffline a s).axle a).state = .offline := by
  obtain ⟨h, e⟩ | ⟨h, e⟩ := goOffline_cases a s
  · rw [e]; exact h
  · rw [e]; cases a <;> simp [removeInverterClaims, AxleUnit.loseAxle, State.axle]

/-- What a miss can do (R115): nothing, put the axle OFFLINE, or count it in SUSPECT. -/
theorem miss_cases (a : AxleId) (s : State) :
    miss a s = s ∨ miss a s = goOffline a s
      ∨ (∃ n, 1 ≤ n ∧ n < s.config.timing.missLimit
          ∧ miss a s = s.onAxle a fun u => { u with state := .suspect, missCount := n }) := by
  rcases h : (s.axle a).state with _ | _ | _ | _
  · left; simp [miss, h]
  · right; left; simp [miss, h]
  · by_cases hl : s.config.timing.missLimit ≤ 1
    · right; left; simp [miss, h, hl]
    · right; right; exact ⟨1, Nat.le_refl 1, by omega, by simp [miss, h, hl]⟩
  · by_cases hl : s.config.timing.missLimit ≤ (s.axle a).missCount + 1
    · right; left; simp [miss, h, hl]
    · right; right
      refine ⟨(s.axle a).missCount + 1, by omega, by omega, ?_⟩
      simp only [miss, h, hl, if_false]
      cases a <;> simp_all [State.onAxle, State.setAxle, State.axle]

end Sys2Proof.Machine
end

