-- ==== Sys2Proof/Laws/Bands.lean ====
section
/-! SUPPORT. Effective edges, bands and clamps (R26 to R29), and the claim table's storage (R3, R13). -/

namespace Sys2Proof.Machine

/-! ## Bands -/

/-- A band as used is never empty: an inverted one is pinned to one value (R28). -/
theorem Band.used_floor_le (b : Band) : b.used.floor ≤ b.used.ceiling := by
  by_cases h : b.ceiling < b.floor
  · simp [used, inverted, h]
  · simp only [used, inverted, h, decide_false, Bool.false_eq_true, if_false]; omega

/-- A clamped value lies within the band as used. -/
theorem Band.clamp_mem (b : Band) (v : Int) : b.used.floor ≤ b.clamp v ∧ b.clamp v ≤ b.used.ceiling := by
  have h := b.used_floor_le
  unfold clamp
  split
  · omega
  · split <;> omega

/-- A value within the band as used is not moved. -/
theorem Band.clamp_of_mem {b : Band} {v : Int} (h : b.used.floor ≤ v ∧ v ≤ b.used.ceiling) : b.clamp v = v := by
  unfold clamp
  split
  · omega
  · split <;> omega

/-- A band that is not inverted is used as computed (R26). -/
theorem Band.used_of_not_inverted {b : Band} (h : b.inverted = false) : b.used = b := by
  simp [used, h]

/-! ## Effective edges -/

/-- The fold of `effective`, from any base. -/
theorem effective_cons (e : ClaimEntry) (t : List ClaimEntry) (axle : ClaimAxle) (kind : ClaimKind) (base : Int) :
    effective (e :: t) axle kind base =
      effective t axle kind (if e.axle = axle && e.kind = kind && beats kind e.value base then e.value else base) := rfl

/-- An effective edge is the base value or the value of an entry of that axle and kind (R26). -/
theorem effective_attained (t : List ClaimEntry) (axle : ClaimAxle) (kind : ClaimKind) (base : Int) :
    effective t axle kind base = base
      ∨ ∃ e ∈ t, e.axle = axle ∧ e.kind = kind ∧ effective t axle kind base = e.value := by
  induction t generalizing base with
  | nil => left; rfl
  | cons e t ih =>
    rw [effective_cons]
    by_cases hc : (decide (e.axle = axle) && decide (e.kind = kind) && beats kind e.value base) = true
    · rw [if_pos hc]
      simp only [Bool.and_eq_true, decide_eq_true_eq] at hc
      right
      rcases ih e.value with h | ⟨d, hd, ha, hk, h⟩
      · exact ⟨e, by simp, hc.1.1, hc.1.2, h⟩
      · exact ⟨d, by simp [hd], ha, hk, h⟩
    · rw [if_neg hc]
      rcases ih base with h | ⟨d, hd, ha, hk, h⟩
      · left; exact h
      · right; exact ⟨d, by simp [hd], ha, hk, h⟩

/-- No value beats an effective ceiling or slew: neither the base value nor an entry's lies below it (R26, R29). -/
theorem effective_le {kind : ClaimKind} (hk : kind ≠ .floor) (t : List ClaimEntry) (axle : ClaimAxle) (base : Int) :
    effective t axle kind base ≤ base
      ∧ ∀ e ∈ t, e.axle = axle → e.kind = kind → effective t axle kind base ≤ e.value := by
  induction t generalizing base with
  | nil => exact ⟨Int.le_refl _, by simp⟩
  | cons e t ih =>
    rw [effective_cons]
    have hb : ∀ v w, beats kind v w = decide (v < w) := by
      intro v w; cases kind <;> first | rfl | exact absurd rfl hk
    by_cases hc : e.axle = axle ∧ e.kind = kind
    · by_cases hv : e.value < base
      · simp only [hc.1, hc.2, hb, hv, decide_true, Bool.and_self, if_true]
        have := ih e.value
        refine ⟨by omega, ?_⟩
        intro d hd ha hk'
        rcases List.mem_cons.mp hd with rfl | hd
        · exact this.1
        · exact this.2 d hd ha hk'
      · simp only [hb, hv, decide_false, Bool.and_false, Bool.false_eq_true, if_false]
        have := ih base
        refine ⟨this.1, ?_⟩
        intro d hd ha hk'
        rcases List.mem_cons.mp hd with rfl | hd
        · omega
        · exact this.2 d hd ha hk'
    · have hf : (decide (e.axle = axle) && decide (e.kind = kind) && beats kind e.value base) = false := by
        rw [Bool.and_eq_false_iff, Bool.and_eq_false_iff]
        by_cases ha : e.axle = axle
        · left; right; simpa using fun h => hc ⟨ha, h⟩
        · left; left; simpa using ha
      simp only [hf, Bool.false_eq_true, if_false]
      have := ih base
      refine ⟨this.1, ?_⟩
      intro d hd ha hk'
      rcases List.mem_cons.mp hd with rfl | hd
      · exact absurd ⟨ha, hk'⟩ hc
      · exact this.2 d hd ha hk'

/-- No value beats an effective floor (R26). -/
theorem le_effective (t : List ClaimEntry) (axle : ClaimAxle) (base : Int) :
    base ≤ effective t axle .floor base
      ∧ ∀ e ∈ t, e.axle = axle → e.kind = .floor → e.value ≤ effective t axle .floor base := by
  induction t generalizing base with
  | nil => exact ⟨Int.le_refl _, by simp⟩
  | cons e t ih =>
    rw [effective_cons]
    by_cases hc : (decide (e.axle = axle) && decide (e.kind = ClaimKind.floor) && beats .floor e.value base) = true
    · rw [if_pos hc]
      simp only [beats, Bool.and_eq_true, decide_eq_true_eq] at hc
      have := ih e.value
      refine ⟨by omega, ?_⟩
      intro d hd ha hk
      rcases List.mem_cons.mp hd with rfl | hd
      · exact this.1
      · exact this.2 d hd ha hk
    · rw [if_neg hc]
      have := ih base
      refine ⟨this.1, ?_⟩
      intro d hd ha hk
      rcases List.mem_cons.mp hd with rfl | hd
      · simp only [beats, ha, hk, decide_true, Bool.and_self, Bool.true_and, decide_eq_true_eq] at hc
        omega
      · exact this.2 d hd ha hk

/-! ## Storage -/

/-- What the table holds after a storage: the new entry, last, and the entries under other keys (R3, R13). -/
theorem mem_storeClaim {t : List ClaimEntry} {e d : ClaimEntry} :
    d ∈ storeClaim t e ↔ d = e ∨ (d ∈ t ∧ d.hasKey e.source e.axle e.kind = false) := by
  simp [storeClaim, removeClaim, or_comm]

/-- A new key is appended to the table as it stands (R3, R13). -/
theorem storeClaim_of_find_none {t : List ClaimEntry} {e : ClaimEntry}
    (h : findClaim t e.source e.axle e.kind = none) : storeClaim t e = t ++ [e] := by
  have hf : removeClaim t e.source e.axle e.kind = t := by
    rw [removeClaim, List.filter_eq_self]
    intro d hd
    simpa using List.find?_eq_none.mp h d hd
  rw [storeClaim, hf]

/-- The act that serves an allocation changes the table, the last band record and the alert units alone (R14). -/
theorem claimTableAct_spec (s : State) :
    (claimTableAct s).table = ageClaims (markGoverning s.table s.config)
      ∧ (claimTableAct s).lastBands = some ⟨bandOf s.table s.config .front, bandOf s.table s.config .rear⟩
      ∧ (claimTableAct s).front = s.front ∧ (claimTableAct s).rear = s.rear
      ∧ (claimTableAct s).alloc = s.alloc ∧ (claimTableAct s).config = s.config
      ∧ (claimTableAct s).holds = s.holds ∧ (claimTableAct s).liveShare = s.liveShare
      ∧ (claimTableAct s).map = s.map := by
  simp [claimTableAct]

end Sys2Proof.Machine
end

