-- ==== Sys2Proof/Laws/Shares.lean ====
section
/-! SUPPORT. The live share, the map and the hold stack (R32, R40 to R64). -/

namespace Sys2Proof.Machine

/-- A step of the live share does not pass the governing share, and moves by at most the slew (R43). -/
theorem moveShare_spec (live governing slew : Nat) :
    (live ≤ governing → live ≤ moveShare live governing slew ∧ moveShare live governing slew ≤ governing)
      ∧ (governing ≤ live → governing ≤ moveShare live governing slew ∧ moveShare live governing slew ≤ live)
      ∧ moveShare live governing slew ≤ live + slew ∧ live ≤ moveShare live governing slew + slew := by
  unfold moveShare
  split
  · omega
  · split <;> omega

/-- A step between two shares of at most 1000 stays at most 1000 (R40). -/
theorem moveShare_le {live governing n : Nat} (slew : Nat) (hl : live ≤ n) (hg : governing ≤ n) :
    moveShare live governing slew ≤ n := by
  have h := moveShare_spec live governing slew
  rcases Nat.le_total live governing with hc | hc
  · have := h.1 hc; omega
  · have := h.2.1 hc; omega

/-- Share control's act changes its own three values alone (R41). -/
theorem shareAct_spec (av : Availability) (load : Nat) (speed : Int) (s : State) :
    shareAct av load speed s =
      { s with
        liveShare := (shareAct av load speed s).liveShare
        forced := (shareAct av load speed s).forced
        lastGoverning := governingShare s load speed } := by
  cases av <;> rfl

/-- The cells written by a run of values, and no others (R36). -/
theorem writeCells_get (m : Vector Nat 64) (i : Nat) (vs : List Nat) (k : Nat) (hk : k < 64) :
    (writeCells m i vs)[k] = if i ≤ k ∧ k < i + vs.length then vs.getD (k - i) 0 else m[k] := by
  induction vs generalizing m i with
  | nil => simp [writeCells]
  | cons v vs ih =>
    rw [writeCells, ih]
    by_cases h1 : i + 1 ≤ k ∧ k < i + 1 + vs.length
    · have h2 : i ≤ k ∧ k < i + (v :: vs).length := by simp only [List.length_cons]; omega
      obtain ⟨n, hn⟩ : ∃ n, k - i = n + 1 := ⟨k - i - 1, by omega⟩
      have hn' : k - (i + 1) = n := by omega
      rw [if_pos h1, if_pos h2, hn, hn']
      simp
    · rw [if_neg h1]
      by_cases h3 : k = i
      · subst h3
        have h2 : k ≤ k ∧ k < k + (v :: vs).length := by simp only [List.length_cons]; omega
        rw [if_pos h2]
        simp
      · have h2 : ¬ (i ≤ k ∧ k < i + (v :: vs).length) := by simp only [List.length_cons]; omega
        rw [if_neg h2]
        simp [Ne.symm h3]

end Sys2Proof.Machine
end

