-- ==== Sys2Proof/Laws/Allocation.lean ====
section
/-! SUPPORT. What an allocation does to each field of the state (R69 to R96): one lemma per field, so that no later proof
unfolds its stages. -/

namespace Sys2Proof.Machine

/-! ## The claim table's act and share control's act -/

section Acts

variable (s : State) (av : Availability) (load : Nat) (speed : Int) (a : AxleId) (p : MasterId) (inp : AllocInput)

@[simp] theorem claimTableAct_pending : (claimTableAct s).pending = s.pending := by simp [claimTableAct]
@[simp] theorem claimTableAct_inside : (claimTableAct s).inside = s.inside := by simp [claimTableAct]
@[simp] theorem claimTableAct_resetAsserted : (claimTableAct s).resetAsserted = s.resetAsserted := by
  simp [claimTableAct]
@[simp] theorem claimTableAct_bitRate : (claimTableAct s).bitRate = s.bitRate := by simp [claimTableAct]
@[simp] theorem claimTableAct_axle : (claimTableAct s).axle a = s.axle a := by simp [claimTableAct]
@[simp] theorem claimTableAct_front : (claimTableAct s).front = s.front := by simp [claimTableAct]
@[simp] theorem claimTableAct_rear : (claimTableAct s).rear = s.rear := by simp [claimTableAct]
@[simp] theorem claimTableAct_table :
    (claimTableAct s).table = ageClaims (markGoverning s.table s.config) := by simp [claimTableAct]
@[simp] theorem claimTableAct_lastBands : (claimTableAct s).lastBands
    = some ⟨bandOf s.table s.config .front, bandOf s.table s.config .rear⟩ := by simp [claimTableAct]
@[simp] theorem claimTableAct_map : (claimTableAct s).map = s.map := by simp [claimTableAct]
@[simp] theorem claimTableAct_liveShare : (claimTableAct s).liveShare = s.liveShare := by simp [claimTableAct]
@[simp] theorem claimTableAct_forced : (claimTableAct s).forced = s.forced := by simp [claimTableAct]
@[simp] theorem claimTableAct_lastGoverning : (claimTableAct s).lastGoverning = s.lastGoverning := by
  simp [claimTableAct]
@[simp] theorem claimTableAct_holds : (claimTableAct s).holds = s.holds := by simp [claimTableAct]
@[simp] theorem claimTableAct_alloc : (claimTableAct s).alloc = s.alloc := by simp [claimTableAct]
@[simp] theorem claimTableAct_config : (claimTableAct s).config = s.config := by simp [claimTableAct]

/-- The act sets CLAIM_LAPSED in the port of each lapsed entry's source, and changes nothing else at a port (R21). -/
theorem claimTableAct_master : (claimTableAct s).master p =
    { s.master p with alert := (s.master p).alert.raiseWhen (lapses s.table p.source) .claimLapsed } := by
  cases p <;> cases h1 : lapses s.table .demand <;> cases h2 : lapses s.table .stability <;>
    simp [claimTableAct, raiseIf, MasterId.source, h1, h2, raise, State.onAlert, State.onMaster, State.setMaster,
      AlertUnit.raiseWhen]

@[simp] theorem shareAct_pending : (shareAct av load speed s).pending = s.pending := by rw [shareAct_spec]
@[simp] theorem shareAct_inside : (shareAct av load speed s).inside = s.inside := by rw [shareAct_spec]
@[simp] theorem shareAct_resetAsserted : (shareAct av load speed s).resetAsserted = s.resetAsserted := by
  rw [shareAct_spec]
@[simp] theorem shareAct_bitRate : (shareAct av load speed s).bitRate = s.bitRate := by rw [shareAct_spec]
@[simp] theorem shareAct_axle : (shareAct av load speed s).axle a = s.axle a := by rw [shareAct_spec, axle_mk]
@[simp] theorem shareAct_front : (shareAct av load speed s).front = s.front := by rw [shareAct_spec]
@[simp] theorem shareAct_rear : (shareAct av load speed s).rear = s.rear := by rw [shareAct_spec]
@[simp] theorem shareAct_master : (shareAct av load speed s).master p = s.master p := by
  rw [shareAct_spec, master_mk]
@[simp] theorem shareAct_table : (shareAct av load speed s).table = s.table := by rw [shareAct_spec]
@[simp] theorem shareAct_lastBands : (shareAct av load speed s).lastBands = s.lastBands := by rw [shareAct_spec]
@[simp] theorem shareAct_map : (shareAct av load speed s).map = s.map := by rw [shareAct_spec]
@[simp] theorem shareAct_lastGoverning :
    (shareAct av load speed s).lastGoverning = governingShare s load speed := by rw [shareAct_spec]
@[simp] theorem shareAct_holds : (shareAct av load speed s).holds = s.holds := by rw [shareAct_spec]
@[simp] theorem shareAct_alloc : (shareAct av load speed s).alloc = s.alloc := by rw [shareAct_spec]
@[simp] theorem shareAct_config : (shareAct av load speed s).config = s.config := by rw [shareAct_spec]

/-! ## The hand-offs -/

/-- A COMMAND hand-off changes its own axle's unit, and at a port the COMMAND_SUPERSEDED flag alone (R99, R100). -/
theorem commandHandoff_master (r : CommandRecord) : (commandHandoff a r s).master p =
    { s.master p with alert := (s.master p).alert.raiseWhen (s.axle a).supersedes .commandSuperseded } := by
  simp [commandHandoff, master_raiseBothIf]

@[simp] theorem commandHandoff_axle (r : CommandRecord) :
    (commandHandoff a r s).axle a = (s.axle a).handoff r := by
  simp [commandHandoff]

@[simp] theorem commandHandoff_axle_other (r : CommandRecord) :
    (commandHandoff a r s).axle a.other = s.axle a.other := by
  simp [commandHandoff]

@[simp] theorem commandHandoff_pending (r : CommandRecord) : (commandHandoff a r s).pending = s.pending := by
  simp [commandHandoff]
@[simp] theorem commandHandoff_inside (r : CommandRecord) : (commandHandoff a r s).inside = s.inside := by
  simp [commandHandoff]
@[simp] theorem commandHandoff_resetAsserted (r : CommandRecord) :
    (commandHandoff a r s).resetAsserted = s.resetAsserted := by simp [commandHandoff]
@[simp] theorem commandHandoff_bitRate (r : CommandRecord) : (commandHandoff a r s).bitRate = s.bitRate := by
  simp [commandHandoff]
@[simp] theorem commandHandoff_table (r : CommandRecord) : (commandHandoff a r s).table = s.table := by
  simp [commandHandoff]
@[simp] theorem commandHandoff_lastBands (r : CommandRecord) : (commandHandoff a r s).lastBands = s.lastBands := by
  simp [commandHandoff]
@[simp] theorem commandHandoff_map (r : CommandRecord) : (commandHandoff a r s).map = s.map := by
  simp [commandHandoff]
@[simp] theorem commandHandoff_liveShare (r : CommandRecord) : (commandHandoff a r s).liveShare = s.liveShare := by
  simp [commandHandoff]
@[simp] theorem commandHandoff_forced (r : CommandRecord) : (commandHandoff a r s).forced = s.forced := by
  simp [commandHandoff]
@[simp] theorem commandHandoff_lastGoverning (r : CommandRecord) :
    (commandHandoff a r s).lastGoverning = s.lastGoverning := by simp [commandHandoff]
@[simp] theorem commandHandoff_holds (r : CommandRecord) : (commandHandoff a r s).holds = s.holds := by
  simp [commandHandoff]
@[simp] theorem commandHandoff_alloc (r : CommandRecord) : (commandHandoff a r s).alloc = s.alloc := by
  simp [commandHandoff]
@[simp] theorem commandHandoff_config (r : CommandRecord) : (commandHandoff a r s).config = s.config := by
  simp [commandHandoff]

/-! ## The mirror -/

/-- Where the port's decoder waits for the reply, the record waits in the slot (R167). -/
theorem mirrorHandOver_replying (p : MasterId) (r : ResultRecord) (s : State) :
    mirrorHandOver (some p) p r s = s.onMaster p (MasterPort.mirrorHandoff r) := by
  simp [mirrorHandOver]

/-- On any other port the arbiter runs at once (R167). -/
theorem mirrorHandOver_of_ne {replying : Option MasterId} {p : MasterId} (h : replying ≠ some p) (r : ResultRecord)
    (s : State) : mirrorHandOver replying p r s = s.onMaster p fun m => (m.mirrorHandoff r).arbitrate := by
  simp [mirrorHandOver, h]

/-- The hand-offs of a DEMAND's allocation, port by port (R92, R94). -/
theorem handOffs_eq (al : Allocation) (s : State) : handOffs al s =
    (((commandHandoff .rear al.rearCommand (commandHandoff .front al.frontCommand s)).onMaster .demand
      (MasterPort.mirrorHandoff al.result)).onMaster .stability fun m => (m.mirrorHandoff al.result).arbitrate) := by
  rw [handOffs, mirrorHandOver_replying, mirrorHandOver_of_ne (by simp)]

/-! ## The whole allocation -/

@[simp] theorem allocate_pending : (allocate inp s).pending = s.pending := by
  simp [allocate, handOffs_eq, recordAllocation, allocationActs]
@[simp] theorem allocate_inside : (allocate inp s).inside = s.inside := by
  simp [allocate, handOffs_eq, recordAllocation, allocationActs]
@[simp] theorem allocate_resetAsserted : (allocate inp s).resetAsserted = s.resetAsserted := by
  simp [allocate, handOffs_eq, recordAllocation, allocationActs]
@[simp] theorem allocate_bitRate : (allocate inp s).bitRate = s.bitRate := by
  simp [allocate, handOffs_eq, recordAllocation, allocationActs]
@[simp] theorem allocate_table : (allocate inp s).table = ageClaims (markGoverning s.table s.config) := by
  simp [allocate, handOffs_eq, recordAllocation, allocationActs]
@[simp] theorem allocate_lastBands : (allocate inp s).lastBands
    = some ⟨bandOf s.table s.config .front, bandOf s.table s.config .rear⟩ := by
  simp [allocate, handOffs_eq, recordAllocation, allocationActs]
@[simp] theorem allocate_map : (allocate inp s).map = s.map := by
  simp [allocate, handOffs_eq, recordAllocation, allocationActs]
@[simp] theorem allocate_holds : (allocate inp s).holds = s.holds := by
  simp [allocate, handOffs_eq, recordAllocation, allocationActs]
@[simp] theorem allocate_config : (allocate inp s).config = s.config := by
  simp [allocate, handOffs_eq, recordAllocation, allocationActs]

/-- The allocator's own records after an allocation (R70, R74). -/
theorem allocate_alloc : (allocate inp s).alloc =
    { s.alloc with
      counter := s.alloc.counter + 1#8
      lastClipped := (allocationOf inp s).clipped
      lastResult := some (allocationOf inp s).result } := by
  simp [allocate, handOffs_eq, recordAllocation, allocationActs]

/-- The share values after an allocation are those of share control's act (R41, R77). -/
theorem allocate_liveShare : (allocate inp s).liveShare = (allocationActs inp s).liveShare := by
  simp [allocate, handOffs_eq, recordAllocation]

theorem allocate_forced : (allocate inp s).forced = (allocationActs inp s).forced := by
  simp [allocate, handOffs_eq, recordAllocation]

theorem allocate_lastGoverning : (allocate inp s).lastGoverning = governingShare s inp.load inp.speed := by
  simp [allocate, handOffs_eq, recordAllocation, allocationActs, governingShare, mapShare]

/-- Each axle supervisor takes its own COMMAND record (R92). -/
@[simp] theorem allocate_front : (allocate inp s).front = s.front.handoff (allocationOf inp s).frontCommand := by
  have h := commandHandoff_axle_other
    (commandHandoff .front (allocationOf inp s).frontCommand
      (recordAllocation (allocationOf inp s) (allocationActs inp s))) .rear (allocationOf inp s).rearCommand
  simp only [AxleId.other, axle_front] at h
  have h2 := commandHandoff_axle (recordAllocation (allocationOf inp s) (allocationActs inp s)) .front
    (allocationOf inp s).frontCommand
  simp only [axle_front] at h2
  simp only [allocate, handOffs_eq, onMaster_front, h, h2]
  simp [recordAllocation, allocationActs]

@[simp] theorem allocate_rear : (allocate inp s).rear = s.rear.handoff (allocationOf inp s).rearCommand := by
  have h := commandHandoff_axle
    (commandHandoff .front (allocationOf inp s).frontCommand
      (recordAllocation (allocationOf inp s) (allocationActs inp s))) .rear (allocationOf inp s).rearCommand
  have h2 := commandHandoff_axle_other (recordAllocation (allocationOf inp s) (allocationActs inp s)) .front
    (allocationOf inp s).frontCommand
  simp only [AxleId.other, axle_rear] at h h2
  simp only [allocate, handOffs_eq, onMaster_rear, h, h2]
  simp [recordAllocation, allocationActs]

end Acts

/-- The alert unit of a port after an allocation (R21, R82, R87, R100). -/
def allocationAlert (inp : AllocInput) (s : State) (p : MasterId) : AlertUnit :=
  ((((((s.master p).alert.raiseWhen (lapses s.table p.source) .claimLapsed).raiseWhen
    (allocationOf inp s).inverted .bandInverted).raiseWhen
    ((allocationOf inp s).unplaced ≠ 0) .unplaced).raiseWhen
    s.front.supersedes .commandSuperseded).raiseWhen
    s.rear.supersedes .commandSuperseded)

theorem allocate_beforeMirror (p : MasterId) (inp : AllocInput) (s : State) :
    (commandHandoff .rear (allocationOf inp s).rearCommand (commandHandoff .front (allocationOf inp s).frontCommand
      (recordAllocation (allocationOf inp s) (allocationActs inp s)))).master p
      = { s.master p with alert := allocationAlert inp s p } := by
  have hr : ((commandHandoff .front (allocationOf inp s).frontCommand
      (recordAllocation (allocationOf inp s) (allocationActs inp s))).axle .rear) = s.rear := by
    have h2 := commandHandoff_axle_other (recordAllocation (allocationOf inp s) (allocationActs inp s)) .front
      (allocationOf inp s).frontCommand
    simp only [AxleId.other] at h2
    rw [h2]
    simp [recordAllocation, allocationActs]
  have hf : ((recordAllocation (allocationOf inp s) (allocationActs inp s)).axle .front) = s.front := by
    simp [recordAllocation, allocationActs]
  rw [commandHandoff_master, hr, commandHandoff_master, hf]
  simp only [recordAllocation, allocationActs, master_raiseBothIf, master_mk, shareAct_master, claimTableAct_master]
  rfl

/-- The demand port after an allocation: its flags, and the result record in its mirror slot (R94). -/
theorem allocate_demandPort (inp : AllocInput) (s : State) : (allocate inp s).demandPort =
    ({ s.demandPort with alert := allocationAlert inp s .demand } : MasterPort).mirrorHandoff
      (allocationOf inp s).result := by
  have h := allocate_beforeMirror .demand inp s
  simp only [master_demand] at h
  simp [allocate, handOffs_eq, h]

/-- The stability port after an allocation: the same, and its idle transmitter takes what waits (R94, R167). -/
theorem allocate_stabilityPort (inp : AllocInput) (s : State) : (allocate inp s).stabilityPort =
    (({ s.stabilityPort with alert := allocationAlert inp s .stability } : MasterPort).mirrorHandoff
      (allocationOf inp s).result).arbitrate := by
  have h := allocate_beforeMirror .stability inp s
  simp only [master_stability] at h
  simp [allocate, handOffs_eq, h]

end Sys2Proof.Machine
end

