-- ==== Sys2Proof/Laws/Characters.lean ====
section
/-! SUPPORT. What a receiver makes of the twelve bits of a character (R173, R177): a character as sent is read back with
its mark and data, and a faulty one is judged by its stop and parity bits. -/

namespace Sys2Proof.Machine

/-! ## Parity -/

theorem oddOnes_append (xs ys : List Bool) : oddOnes (xs ++ ys) = xor (oddOnes xs) (oddOnes ys) := by
  have h : ∀ (l : List Bool) (b : Bool), l.foldl xor b = xor b (l.foldl xor false) := by
    intro l
    induction l with
    | nil => simp
    | cons x xs ih => intro b; simp only [List.foldl_cons]; rw [ih, ih (xor false x)]; cases b <;> cases x <;> simp
  simp only [oddOnes, List.foldl_append]
  rw [h ys]

/-- With its own parity bit behind it, a list of bits holds an even number of ones (R173). -/
theorem oddOnes_parity (xs : List Bool) : oddOnes (xs ++ [oddOnes xs]) = false := by
  rw [oddOnes_append]
  have h : oddOnes [oddOnes xs] = oddOnes xs := by simp [oddOnes]
  rw [h, Bool.xor_self]

/-! ## A character as sent -/

variable (marked : Bool) (b : Byte)

theorem lineCharacter_start : (lineCharacter marked b).getLsbD 0 = false := by
  simp only [lineCharacter, BitVec.getLsbD_append]
  simp

theorem lineCharacter_mark : (lineCharacter marked b).getLsbD 9 = marked := by
  simp only [lineCharacter, BitVec.getLsbD_append]
  simp

theorem lineCharacter_parity : (lineCharacter marked b).getLsbD 10 = oddOnes (dataBits b ++ [marked]) := by
  simp only [lineCharacter, BitVec.getLsbD_append]
  simp

theorem lineCharacter_stop : (lineCharacter marked b).getLsbD 11 = true := by
  simp only [lineCharacter, BitVec.getLsbD_append]
  simp

@[simp] theorem characterData_lineCharacter : characterData (lineCharacter marked b) = b := by
  apply BitVec.eq_of_getLsbD_eq
  intro i hi
  simp only [characterData, lineCharacter, BitVec.getLsbD_extractLsb', BitVec.getLsbD_append]
  simp [hi, Nat.add_comm 1 i]

/-- A character as sent is correct, with its mark and data. -/
@[simp] theorem readCharacter_lineCharacter : readCharacter (lineCharacter marked b) = .correct marked b := by
  have h : oddOnes (dataBits b ++ [marked, oddOnes (dataBits b ++ [marked])]) = false := by
    have := oddOnes_parity (dataBits b ++ [marked])
    simpa using this
  simp only [readCharacter, lineCharacter_start, lineCharacter_stop, lineCharacter_mark, lineCharacter_parity,
    characterData_lineCharacter, h]
  rfl

/-- A character as sent is acted on as a correct character. -/
@[simp] theorem receivedCharacter_lineCharacter (l : Link) (s : State) :
    receivedCharacter l (lineCharacter marked b) s = correctCharacter l marked b s := by
  simp [receivedCharacter]

/-! ## A faulty character -/

variable (c : LineCharacter)

/-- Where stop bit and parity are both wrong the fault is FRAMING. -/
theorem characterFault_framing (hs : c.getLsbD 0 = false) (h : c.getLsbD 11 = false) :
    characterFault c = some .framing := by
  simp only [characterFault, readCharacter, hs, h]
  rfl

theorem characterFault_parity (hs : c.getLsbD 0 = false) (h : c.getLsbD 11 = true)
    (hp : oddOnes (dataBits (characterData c) ++ [c.getLsbD 9, c.getLsbD 10]) = true) :
    characterFault c = some .parity := by
  simp only [characterFault, readCharacter, hs, h, hp]
  rfl

/-- A faulty character is the same fault in every assembly state (R177). -/
@[simp] theorem faultEffect_character (r : Receiver) :
    faultEffect (.character c) r = (characterFault c).map fun k => (k, .discarding) := by
  unfold faultEffect; rfl

/-! ## Faults that the assembly state cannot meet -/

/-- CHECK is met where a whole frame but its check character has been assembled. -/
theorem faultEffect_check (r : Receiver) :
    faultEffect .check r = if r.assembled.isSome then some (.check, .idle) else none := rfl

/-- LENGTH is met at a length character alone. -/
theorem faultEffect_length_none {r : Receiver} (h : ∀ k, r ≠ .awaitLength k) : faultEffect .length r = none := by
  cases r
  case awaitLength k => exact absurd rfl (h k)
  all_goals rfl

/-- TRUNCATED is met inside a frame alone. -/
theorem faultEffect_truncated_none {r : Receiver} (h : r = .idle ∨ r = .discarding) (k : Byte) :
    faultEffect (.truncated k) r = none := by
  rcases h with rfl | rfl <;> rfl

/-- STRAY is met between frames alone. -/
theorem faultEffect_stray_none {r : Receiver} (h : r ≠ .idle) : faultEffect .stray r = none := by
  cases r
  case idle => exact absurd rfl h
  all_goals rfl

end Sys2Proof.Machine
end

