-- ==== Sys2Proof/Laws/Commands.lean ====
section
/-! SUPPORT. Every command said as one of three forms: a request row is a taking with its owner, an event row acts only
while RESET is released, and the two RESET rows; then, for a whole command, everything it can do. -/

namespace Sys2Proof.Machine

/-- The owner that answers a request row; a row that takes no request has none. -/
def ownerOf : Instr → Frame → State → List Byte × State
  | .demand p => onDemandLink p demandOwner
  | .claim p => claimOwner p
  | .release p => releaseOwner p
  | .releaseAll p => releaseAllOwner p
  | .hold p => holdOwner p
  | .resume p => resumeOwner p
  | .configureEnvelope p => envelopeOwner p
  | .configurePolicy p => policyOwner p
  | .configureMotion p => motionOwner p
  | .configureTiming p => timingOwner p
  | .configureLoadBands p => loadBandsOwner p
  | .configureSpeedBands p => speedBandsOwner p
  | .configureAlert p => alertOwner p
  | .configureUnknownSection _ => fun _ s => refuse .badField s
  | .mapWrite p => onDemandLink p mapWriteOwner
  | .mapFill p => onDemandLink p mapFillOwner
  | .mapRead _ => mapReadOwner
  | .status p => statusOwner p
  | .listClaims _ => listClaimsOwner
  | .listHolds _ => listHoldsOwner
  | .restart p => onDemandLink p restartOwner
  | .unknownRequest _ => fun _ s => refuse .unknownRequest s
  | _ => fun _ s => ([], s)

/-- A request row is a taking by its port's decoder (R159). -/
theorem exec_request {c : Instr} {p : MasterId} (h : requestPort c = some p) (s : State) :
    exec c s = taking c p s (ownerOf c) := by
  cases c <;> cases h <;> rfl

/-- The row that takes a frame on a port is a request row of that port. -/
theorem requestPort_decodeRequest (p : MasterId) (f : Frame) : requestPort (decodeRequest p f) = some p := by
  unfold decodeRequest
  simp only [apply_ite requestPort]
  simp only [requestPort, ite_self]

/-- While RESET is asserted only the two RESET rows act (R147, log 9). -/
theorem exec_asserted {c : Instr} {s : State} (hs : s.resetAsserted = true) (h1 : c ≠ .resetAssert)
    (h2 : ∀ brs1 brs0, c ≠ .resetRelease brs1 brs0) : exec c s = .next s := by
  rcases h : requestPort c with _ | p
  · cases c <;> first
      | exact absurd rfl h1
      | exact absurd rfl (h2 _ _)
      | (simp only [exec, execLapseTimerExpiry, execLapseStep, execCommandComplete, execFeedbackWindowExpiry,
          execFeedback, execAxleForeignFrame, execFrameReceived, execReceiveFault, execFrameGapTimeout,
          execMasterLinkBreak, execAxleLinkBreak, execLinkUp, execMasterFrameSent, execBreakSent,
          execCharacterReceived, completing, whileReleased_asserted hs]; done)
      | cases h
  · rw [exec_request h, taking, whileReleased_asserted hs]

/-- The taking of the head frame by its own row. -/
theorem exec_ready {p : MasterId} {f : Frame} {s : State} (h : Ready p f s) :
    exec (decodeRequest p f) s
      = .next (answered p f (ownerOf (decodeRequest p f) f (taken p s)).1
          (ownerOf (decodeRequest p f) f (taken p s)).2) := by
  rw [exec_request (requestPort_decodeRequest p f), taking_ready h rfl]

/-! ## Events -/

/-- What an event row does while RESET is released; a request row and the two RESET rows are no events. -/
def eventOf : Instr → State → State
  | .lapseTimerExpiry, s =>
    match s.alloc.state, s.alloc.lapseTimer with
    | .running, .running _ =>
      raiseBoth .demandLapse
        { lapsePush s with
          alloc := { s.alloc with
            state := .lapsed
            settled := false
            lapseTimer := .stopped
            lapseStepTimer := .running s.config.timing.lapseStep } }
    | _, _ => s
  | .lapseStep, s =>
    match s.alloc.state, s.alloc.settled, s.alloc.lapseStepTimer with
    | .lapsed, false, .running _ => lapseStepOf s
    | _, _, _ => s
  | .commandComplete a, s =>
    match (s.axle a).tx with
    | .sending r false => (countMiss a s).onAxle a (AxleUnit.completeCommand r s.config.timing.windowCount)
    | .sending _ true => s.onAxle a fun u => { u with tx := .breaking }
    | .idle => s
    | .breaking => s
  | .feedbackWindowExpiry a, s => if (s.axle a).window.isRunning then countMiss a s else s
  | .feedback a, s =>
    match (s.receiverOf (.axle a)).assembled with
    | some f =>
      if s.linkOf (.axle a) = .up ∧ f.kind = Kind.feedback then feedbackTaken a f (s.setReceiver (.axle a) .idle) else s
    | none => s
  | .axleForeignFrame a, s =>
    match (s.receiverOf (.axle a)).assembled with
    | some f =>
      if s.linkOf (.axle a) = .up ∧ f.kind ≠ Kind.feedback then
        raiseBoth .axleLinkFault (s.setReceiver (.axle a) .idle)
      else s
    | none => s
  | .frameReceived p, s =>
    match (s.receiverOf (.master p)).assembled with
    | some f =>
      if s.linkOf (.master p) = .up then masterFrameTaken p f (s.setReceiver (.master p) .idle) else s
    | none => s
  | .receiveFault l c, s =>
    match faultEffect c (s.receiverOf l) with
    | some (k, r) => if s.linkOf l = .up then faultTo l k r s else s
    | none => s
  | .frameGapTimeout l, s => if s.linkOf l = .up then idleGap l s else s
  | .masterLinkBreak p, s =>
    if (s.master p).link = .up then orphanClaims p (removeHolds p (s.onMaster p MasterPort.linkBroken)) else s
  | .axleLinkBreak a, s =>
    if (s.axle a).link = .up then raiseBoth .axleLinkFault (goOffline a (s.onAxle a AxleUnit.linkBroken)) else s
  | .linkUp l, s => if s.linkOf l = .up then s else (s.setLink l .up).setReceiver l .idle
  | .masterFrameSent p, s => s.onMaster p MasterPort.frameSent
  | .breakSent (.master p), s => s.onMaster p MasterPort.breakEnded
  | .breakSent (.axle a), s => s.onAxle a AxleUnit.breakEnded
  | .characterReceived l marked b, s => if s.linkOf l = .up then correctCharacter l marked b s else s
  | _, s => s

/-- An event row answers a next state, with its effect while RESET is released. -/
theorem exec_event {c : Instr} {s : State} (hc : requestPort c = none) (h1 : c ≠ .resetAssert)
    (h2 : ∀ brs1 brs0, c ≠ .resetRelease brs1 brs0) (hs : s.resetAsserted = false) :
    exec c s = .next (eventOf c s) := by
  have next : ∀ {k : State → State} {t : State}, k s = t → whileReleased s k = .next t := by
    rintro k t rfl; exact whileReleased_next hs
  cases c
  case resetAssert => exact absurd rfl h1
  case resetRelease => exact absurd rfl (h2 _ _)
  case lapseTimerExpiry => rw [exec, execLapseTimerExpiry, next]; rfl
  case lapseStep => rw [exec, execLapseStep, next]; rfl
  case commandComplete a => rw [exec, execCommandComplete, next]; rfl
  case feedbackWindowExpiry a =>
    rw [exec, execFeedbackWindowExpiry, next]
    simp only [eventOf]
    rcases (s.axle a).window with _ | d <;> rfl
  case feedback a =>
    rw [exec, execFeedback, completing, next]
    simp only [eventOf]
    rcases (s.receiverOf (.axle a)).assembled with _ | f <;> simp
  case axleForeignFrame a =>
    rw [exec, execAxleForeignFrame, completing, next]
    simp only [eventOf]
    rcases (s.receiverOf (.axle a)).assembled with _ | f <;> simp
  case frameReceived p =>
    rw [exec, execFrameReceived, completing, next]
    simp only [eventOf]
    rcases (s.receiverOf (.master p)).assembled with _ | f <;> simp
  case receiveFault l k => rw [exec, execReceiveFault, next]; rfl
  case frameGapTimeout l => rw [exec, execFrameGapTimeout, next]; rfl
  case masterLinkBreak p => rw [exec, execMasterLinkBreak, next]; rfl
  case axleLinkBreak a => rw [exec, execAxleLinkBreak, next]; rfl
  case linkUp l => rw [exec, execLinkUp, next]; rfl
  case masterFrameSent p => rw [exec, execMasterFrameSent, next]; rfl
  case breakSent l => rw [exec, execBreakSent, next]; cases l <;> rfl
  case characterReceived l marked b =>
    rw [exec, execCharacterReceived, next]
    simp only [eventOf, receivedCharacter_lineCharacter]
  all_goals cases hc

/-- Everything a command can do: nothing, take and answer a request, have an event's effect, or move RESET. -/
theorem exec_cases (c : Instr) (s : State) :
    exec c s = .next s
      ∨ (∃ p f, requestPort c = some p ∧ Ready p f s ∧ decodeRequest p f = c
          ∧ exec c s = .next (answered p f (ownerOf c f (taken p s)).1 (ownerOf c f (taken p s)).2))
      ∨ (requestPort c = none ∧ s.resetAsserted = false ∧ exec c s = .next (eventOf c s))
      ∨ (c = .resetAssert ∧ exec c s = .next { State.powerOn with pending := s.pending, inside := s.inside })
      ∨ ∃ brs1 brs0, c = .resetRelease brs1 brs0 ∧ exec c s = .next (releaseReset brs1 brs0 s) := by
  rcases hc : requestPort c with _ | p
  · by_cases h1 : c = .resetAssert
    · subst h1; exact .inr (.inr (.inr (.inl ⟨rfl, rfl⟩)))
    · by_cases h2 : ∃ brs1 brs0, c = .resetRelease brs1 brs0
      · obtain ⟨b1, b0, rfl⟩ := h2
        by_cases hs : s.resetAsserted = true
        · exact .inr (.inr (.inr (.inr ⟨b1, b0, rfl, by simp [exec, execResetRelease, hs]⟩)))
        · exact .inl (by simp [exec, execResetRelease, hs])
      · have h2' : ∀ b1 b0, c ≠ .resetRelease b1 b0 := fun b1 b0 h => h2 ⟨b1, b0, h⟩
        by_cases hs : s.resetAsserted = true
        · exact .inl (exec_asserted hs h1 h2')
        · exact .inr (.inr (.inl ⟨rfl, by simpa using hs, exec_event hc h1 h2' (by simpa using hs)⟩))
  · rcases taking_cases c p s (ownerOf c) with h | ⟨f, hr, hd, h⟩
    · exact .inl (by rw [exec_request hc, h])
    · exact .inr (.inl ⟨p, f, rfl, hr, hd, by rw [exec_request hc, h]⟩)

/-- Every command answers a next state. -/
theorem exec_next (c : Instr) (s : State) : ∃ t, exec c s = .next t := by
  rcases exec_cases c s with h | ⟨_, _, _, _, _, h⟩ | ⟨_, _, h⟩ | ⟨_, h⟩ | ⟨_, _, _, h⟩ <;> exact ⟨_, h⟩

end Sys2Proof.Machine
end

