-- ==== Sys2Proof/Laws/Allocating.lean ====
section
/-! SUPPORT. What an allocation does with the events that fall inside it (R76, R95, R96; log 6): where nothing falls
inside it is `allocate`; each part reads the state at its own moment and once; each event inside is a command of the
table, other than the allocator's own; and the induction by which a property survives the whole. -/

namespace Sys2Proof.Machine

/-! ## Nothing falls inside -/

theorem allocating_nothingInside {s : State} (replying : Option MasterId) (inp : AllocInput) (h : s.inside = []) :
    (allocating replying inp s).1.formed (allocating replying inp s).2 = allocationOf inp s
      ∧ (allocating replying inp s).2
        = mirrorHandOver replying .stability (allocationOf inp s).result
            (mirrorHandOver replying .demand (allocationOf inp s).result
              (commandHandoff .rear (allocationOf inp s).rearCommand
                (commandHandoff .front (allocationOf inp s).frontCommand
                  (recordAllocation (allocationOf inp s) (allocationActs inp s))))) := by
  obtain ⟨pe, ins, ra, br, dp, sp, fr, re, ta, lb, ma, ls, fo, lg, ho, al, co⟩ := s
  obtain rfl : ins = [] := h
  simp [allocating, partOrder, takePart, startAllocating, Allocating.once, Allocating.complete,
    Allocating.formed, allocationOf, allocationActs, Allocation.commandOf, bandRecord]

/-- A DEMAND's allocation inside which nothing falls. -/
theorem allocateWith_demand_nothingInside {s : State} (inp : AllocInput) (h : s.inside = []) :
    allocateWith (some .demand) inp s = (allocationOf inp s, allocate inp s) := by
  obtain ⟨h1, h2⟩ := allocating_nothingInside (some .demand) inp h
  exact Prod.ext h1 h2

/-- A lapse step's allocation inside which nothing falls: no decoder waits, so the demand port's arbiter has run too. -/
theorem allocateWith_lapse_nothingInside {s : State} (inp : AllocInput) (h : s.inside = []) :
    allocateWith none inp s = (allocationOf inp s, (allocate inp s).onMaster .demand MasterPort.arbitrate) := by
  obtain ⟨h1, h2⟩ := allocating_nothingInside none inp h
  refine Prod.ext h1 (h2.trans ?_)
  rw [allocate, handOffs_eq, mirrorHandOver_of_ne (by simp), mirrorHandOver_of_ne (by simp)]
  rfl

/-! ## The events inside -/

/-- The rows that act on the allocator as one whole, and those of the RESET input: none falls inside an allocation (R73,
R147). -/
def allocatorsOwn : Instr → Bool
  | .demand .demand => true
  | .restart .demand => true
  | .lapseTimerExpiry => true
  | .lapseStep => true
  | .resetAssert => true
  | .resetRelease _ _ => true
  | _ => false

theorem ownerInside_some {c : Instr} {owner : Frame → State → List Byte × State} (h : ownerInside c = some owner) :
    owner = ownerOf c ∧ allocatorsOwn c = false := by
  cases c
  case demand p => cases p <;> cases h; exact ⟨rfl, rfl⟩
  case restart p => cases p <;> cases h; exact ⟨rfl, rfl⟩
  all_goals cases h
  all_goals exact ⟨rfl, rfl⟩

theorem requestInside_cases (p : MasterId) (s : State) :
    requestInside p s = .next s
      ∨ ∃ c, allocatorsOwn c = false ∧ requestPort c = some p ∧ requestInside p s = exec c s := by
  unfold requestInside
  rcases (s.master p).rxQueue.head? with _ | f
  · exact .inl rfl
  · simp only
    rcases h : ownerInside (decodeRequest p f) with _ | owner
    · exact .inl rfl
    · obtain ⟨rfl, ho⟩ := ownerInside_some h
      have hp := requestPort_decodeRequest p f
      exact .inr ⟨_, ho, hp, (exec_request hp s).symm⟩

/-- An event inside an allocation has no effect, or the whole effect of one command of the table other than the
allocator's own. -/
theorem eventAfter_cases (replying : Option MasterId) (e : InnerEvent) (s : State) :
    eventAfter replying e s = s
      ∨ ∃ c, allocatorsOwn c = false ∧ exec c s = .next (eventAfter replying e s) := by
  have key : ∀ r : Result, eventOutcome replying e s = r →
      (r = .next s ∨ ∃ c, allocatorsOwn c = false ∧ r = exec c s) →
      eventAfter replying e s = s
        ∨ ∃ c, allocatorsOwn c = false ∧ exec c s = .next (eventAfter replying e s) := by
    rintro r hr (rfl | ⟨c, hc, rfl⟩)
    · left; rw [eventAfter, hr]
    · obtain ⟨t, ht⟩ := exec_next c s
      exact .inr ⟨c, hc, by rw [eventAfter, hr, ht]⟩
  cases e
  case request p =>
    refine key _ rfl ?_
    by_cases h : replying = some p
    · left; simp [eventOutcome, h]
    · rcases requestInside_cases p s with hq | ⟨c, hc, -, hq⟩
      · left; simp [eventOutcome, h, hq]
      · right; exact ⟨c, hc, by simp [eventOutcome, h, hq]⟩
  case masterLinkBreak p =>
    refine key _ rfl ?_
    by_cases h : replying = some p
    · left; simp [eventOutcome, h]
    · right; exact ⟨.masterLinkBreak p, rfl, by simp [eventOutcome, h, exec]⟩
  case commandComplete a => exact key _ rfl (.inr ⟨.commandComplete a, rfl, rfl⟩)
  case feedbackWindowExpiry a => exact key _ rfl (.inr ⟨.feedbackWindowExpiry a, rfl, rfl⟩)
  case feedback a => exact key _ rfl (.inr ⟨.feedback a, rfl, rfl⟩)
  case axleForeignFrame a => exact key _ rfl (.inr ⟨.axleForeignFrame a, rfl, rfl⟩)
  case frameReceived p => exact key _ rfl (.inr ⟨.frameReceived p, rfl, rfl⟩)
  case receiveFault l c => exact key _ rfl (.inr ⟨.receiveFault l c, rfl, rfl⟩)
  case frameGapTimeout l => exact key _ rfl (.inr ⟨.frameGapTimeout l, rfl, rfl⟩)
  case axleLinkBreak a => exact key _ rfl (.inr ⟨.axleLinkBreak a, rfl, rfl⟩)
  case linkUp l => exact key _ rfl (.inr ⟨.linkUp l, rfl, rfl⟩)
  case masterFrameSent p => exact key _ rfl (.inr ⟨.masterFrameSent p, rfl, rfl⟩)
  case breakSent l => exact key _ rfl (.inr ⟨.breakSent l, rfl, rfl⟩)
  case characterReceived l marked b => exact key _ rfl (.inr ⟨.characterReceived l marked b, rfl, rfl⟩)

/-! ## The parts -/

/-- Everything a part can do to the state: nothing, or its own act, record or hand-over (R75 to R77, R92, R94). -/
theorem takePart_state (x : AllocPart) (w : Allocating) (s : State) :
    (takePart x w s).2 = s ∨ (takePart x w s).2 = claimTableAct s
      ∨ (∃ av, (takePart x w s).2 = shareAct av w.input.load w.input.speed s)
      ∨ (w.complete = true ∧ (takePart x w s).2 = recordAllocation (w.formed s) s)
      ∨ (∃ a, w.complete = true ∧ (takePart x w s).2 = commandHandoff a ((w.formed s).commandOf a) s)
      ∨ ∃ p, w.complete = true ∧ (takePart x w s).2 = mirrorHandOver w.replying p (w.formed s).result s := by
  have once : ∀ k : Allocation → State → State, (w.once x s k).2 = s
      ∨ (w.complete = true ∧ (w.once x s k).2 = k (w.formed s) s) := by
    intro k
    unfold Allocating.once
    split
    · next h => exact .inr ⟨(Bool.and_eq_true_iff.mp h).1, rfl⟩
    · exact .inl rfl
  rcases x with _ | a | _ | _ | a | p
  · rcases hb : w.bands with _ | b
    · exact .inr (.inl (by simp [takePart, hb]))
    · exact .inl (by simp [takePart, hb])
  · cases a <;> exact .inl rfl
  · simp only [takePart]
    split
    · exact .inr (.inr (.inl ⟨_, rfl⟩))
    · exact .inl rfl
  · rcases once recordAllocation with h | h
    · exact .inl h
    · exact .inr (.inr (.inr (.inl h)))
  · rcases once fun al => commandHandoff a (al.commandOf a) with h | h
    · exact .inl h
    · exact .inr (.inr (.inr (.inr (.inl ⟨a, h⟩))))
  · rcases once fun al => mirrorHandOver w.replying p al.result with h | h
    · exact .inl h
    · exact .inr (.inr (.inr (.inr (.inr ⟨p, h⟩))))

/-- No part changes what falls inside later allocations. -/
@[simp] theorem takePart_inside (x : AllocPart) (w : Allocating) (s : State) : (takePart x w s).2.inside = s.inside := by
  rcases takePart_state x w s with h | h | ⟨_, h⟩ | ⟨-, h⟩ | ⟨_, -, h⟩ | ⟨_, -, h⟩ <;> rw [h] <;>
    simp [recordAllocation, mirrorHandOver]

/-! ## What the events inside leave to the allocator -/

/-- RESET, what falls inside later allocations and the allocator's own items but its state are the same; while the
allocator is RUNNING or LAPSED, so are its state and every section but MOTION (R151). -/
def SameAllocator (s t : State) : Prop :=
  t.inside = s.inside ∧ t.resetAsserted = s.resetAsserted ∧ t.alloc = { s.alloc with state := t.alloc.state }
    ∧ (s.alloc.state.stationary = false →
        t.alloc.state = s.alloc.state ∧ t.config = { s.config with motion := t.config.motion })

theorem SameAllocator.refl (s : State) : SameAllocator s s :=
  ⟨rfl, rfl, rfl, fun _ => ⟨rfl, rfl⟩⟩

theorem SameAllocator.of_eq {s t : State} (hi : t.inside = s.inside) (hr : t.resetAsserted = s.resetAsserted)
    (ha : t.alloc = s.alloc) (hc : t.config = s.config) : SameAllocator s t :=
  ⟨hi, hr, by rw [ha], fun _ => ⟨by rw [ha], by rw [hc]⟩⟩

theorem SameAllocator.trans {s t u : State} (h : SameAllocator s t) (h' : SameAllocator t u) : SameAllocator s u := by
  obtain ⟨a, b, c, d⟩ := h
  obtain ⟨a', b', c', d'⟩ := h'
  refine ⟨a'.trans a, b'.trans b, by rw [c', c], fun hs => ?_⟩
  obtain ⟨e, g⟩ := d hs
  obtain ⟨e', g'⟩ := d' (by rw [e]; exact hs)
  exact ⟨e'.trans e, by rw [g', g]⟩

section Same

variable (s : State) (a : AxleId) (p : MasterId) (l : Link)

theorem sameAllocator_onMaster (g : MasterPort → MasterPort) : SameAllocator s (s.onMaster p g) :=
  .of_eq (by simp) (by simp) (by simp) (by simp)
theorem sameAllocator_onAxle (g : AxleUnit → AxleUnit) : SameAllocator s (s.onAxle a g) :=
  .of_eq (by simp) (by simp) (by simp) (by simp)
theorem sameAllocator_setReceiver (r : Receiver) : SameAllocator s (s.setReceiver l r) :=
  .of_eq (by simp) (by simp) (by simp) (by simp)
theorem sameAllocator_setLink (x : LinkState) : SameAllocator s (s.setLink l x) :=
  .of_eq (by simp) (by simp) (by simp) (by simp)
theorem sameAllocator_raise (f : EventFlag) : SameAllocator s (raise p f s) :=
  .of_eq (by simp) (by simp) (by simp) (by simp)
theorem sameAllocator_raiseBoth (f : EventFlag) : SameAllocator s (raiseBoth f s) :=
  .of_eq (by simp) (by simp) (by simp) (by simp)
theorem sameAllocator_raiseIf (c : Bool) (f : EventFlag) : SameAllocator s (raiseIf c p f s) :=
  .of_eq (by simp) (by simp) (by simp) (by simp)
theorem sameAllocator_raiseBothIf (c : Bool) (f : EventFlag) : SameAllocator s (raiseBothIf c f s) :=
  .of_eq (by simp) (by simp) (by simp) (by simp)
theorem sameAllocator_taken : SameAllocator s (taken p s) := sameAllocator_onMaster s p _
theorem sameAllocator_answered (f : Frame) (payload : List Byte) : SameAllocator s (answered p f payload s) :=
  sameAllocator_onMaster s p _

theorem sameAllocator_goOffline : SameAllocator s (goOffline a s) := by
  rcases goOffline_cases a s with ⟨-, h⟩ | ⟨-, h⟩
  · rw [h]; exact .refl s
  · rw [h]
    exact (sameAllocator_onAxle s a _).trans ((SameAllocator.of_eq rfl rfl rfl rfl).trans (sameAllocator_raiseBoth _ _))

theorem sameAllocator_miss : SameAllocator s (miss a s) := by
  unfold miss
  split <;> (try split) <;> first
    | exact .refl s
    | exact sameAllocator_goOffline s a
    | exact sameAllocator_onAxle s a _

theorem sameAllocator_countMiss : SameAllocator s (countMiss a s) := by
  unfold countMiss
  split
  · exact (sameAllocator_onAxle s a _).trans (sameAllocator_miss _ a)
  · exact sameAllocator_onAxle s a _

theorem sameAllocator_derateIntake (k : ClaimKind) (d : Derate) : SameAllocator s (derateIntake a k d s) := by
  unfold derateIntake
  split
  · exact .refl s
  · exact .of_eq rfl rfl rfl rfl
  · split
    · exact sameAllocator_raiseBoth s _
    · exact (SameAllocator.of_eq rfl rfl rfl rfl).trans (sameAllocator_raiseBothIf _ _ _)

theorem sameAllocator_countGood (good : Nat) : SameAllocator s (countGood a good s) := by
  unfold countGood goOnline
  split
  · exact (sameAllocator_onAxle s a _).trans (sameAllocator_raiseBoth _ _)
  · exact sameAllocator_onAxle s a _

theorem sameAllocator_readyAnswer : SameAllocator s (readyAnswer a s) := by
  unfold readyAnswer
  split <;> first | exact sameAllocator_countGood s a _ | exact sameAllocator_onAxle s a _ | exact .refl s

theorem sameAllocator_feedbackTaken (f : Frame) : SameAllocator s (feedbackTaken a f s) := by
  unfold feedbackTaken matchedFeedback derateHandoff
  split
  · exact sameAllocator_raiseBoth s _
  · split
    · split
      · exact (sameAllocator_onAxle s a _).trans ((sameAllocator_readyAnswer _ a).trans
          ((sameAllocator_derateIntake _ a _ _).trans (sameAllocator_derateIntake _ a _ _)))
      · exact (sameAllocator_onAxle s a _).trans (sameAllocator_goOffline _ a)
    · exact sameAllocator_raiseBoth s _

theorem sameAllocator_masterFrameTaken (f : Frame) : SameAllocator s (masterFrameTaken p f s) := by
  unfold masterFrameTaken
  split
  · exact sameAllocator_onMaster s p _
  · exact sameAllocator_raise s p _

theorem sameAllocator_frameTaken (f : Frame) : SameAllocator s (frameTaken l f s) := by
  cases l with
  | master p => exact sameAllocator_masterFrameTaken s p f
  | axle a =>
    simp only [frameTaken, axleFrameTaken]
    split
    · exact sameAllocator_feedbackTaken s a f
    · exact sameAllocator_raiseBoth s _

theorem sameAllocator_faultTo (k : LinkFault) (r : Receiver) : SameAllocator s (faultTo l k r s) := by
  refine (sameAllocator_setReceiver s l r).trans ?_
  cases l with
  | master p => exact sameAllocator_onMaster _ p _
  | axle a => exact sameAllocator_raiseBoth _ _

theorem sameAllocator_correctCharacter (marked : Bool) (b : Byte) :
    SameAllocator s (correctCharacter l marked b s) := by
  unfold correctCharacter payloadCharacter
  split <;> (try split) <;> (try split) <;> first
    | exact sameAllocator_setReceiver s l _
    | exact sameAllocator_faultTo s l _ _
    | exact .refl s
    | exact (sameAllocator_setReceiver s l _).trans (sameAllocator_frameTaken _ l _)

theorem sameAllocator_removeHolds : SameAllocator s (removeHolds p s) :=
  (SameAllocator.of_eq rfl rfl rfl rfl).trans (sameAllocator_raiseIf _ _ _ _)

theorem sameAllocator_orphanClaims : SameAllocator s (orphanClaims p s) :=
  (SameAllocator.of_eq rfl rfl rfl rfl).trans (sameAllocator_raiseIf _ _ _ _)

end Same

/-- An event row other than the allocator's own leaves the allocator its own. -/
theorem sameAllocator_eventOf {c : Instr} (h : allocatorsOwn c = false) (s : State) : SameAllocator s (eventOf c s) := by
  cases c <;> first
    | exact .refl s
    | exact absurd h (by decide)
    | skip
  case commandComplete a =>
    simp only [eventOf]
    split
    · exact (sameAllocator_countMiss s a).trans (sameAllocator_onAxle _ a _)
    · exact sameAllocator_onAxle s a _
    · exact .refl s
    · exact .refl s
  case feedbackWindowExpiry a =>
    simp only [eventOf]
    split
    · exact sameAllocator_countMiss s a
    · exact .refl s
  case feedback a =>
    simp only [eventOf]
    split <;> (try split) <;> first
      | exact (sameAllocator_setReceiver s _ _).trans (sameAllocator_feedbackTaken _ a _)
      | exact .refl s
  case axleForeignFrame a =>
    simp only [eventOf]
    split <;> (try split) <;> first
      | exact (sameAllocator_setReceiver s _ _).trans (sameAllocator_raiseBoth _ _)
      | exact .refl s
  case frameReceived p =>
    simp only [eventOf]
    split <;> (try split) <;> first
      | exact (sameAllocator_setReceiver s _ _).trans (sameAllocator_masterFrameTaken _ p _)
      | exact .refl s
  case receiveFault l k =>
    simp only [eventOf]
    split <;> (try split) <;> first
      | exact sameAllocator_faultTo s l _ _
      | exact .refl s
  case frameGapTimeout l =>
    simp only [eventOf, idleGap]
    split <;> (try split) <;> first
      | exact sameAllocator_setReceiver s l _
      | exact sameAllocator_faultTo s l _ _
      | exact .refl s
  case masterLinkBreak p =>
    simp only [eventOf]
    split
    · exact (sameAllocator_onMaster s p _).trans
        ((sameAllocator_removeHolds _ p).trans (sameAllocator_orphanClaims _ p))
    · exact .refl s
  case axleLinkBreak a =>
    simp only [eventOf]
    split
    · exact (sameAllocator_onAxle s a _).trans
        ((sameAllocator_goOffline _ a).trans (sameAllocator_raiseBoth _ _))
    · exact .refl s
  case linkUp l =>
    simp only [eventOf]
    split
    · exact .refl s
    · exact (sameAllocator_setLink s l _).trans (sameAllocator_setReceiver _ l _)
  case masterFrameSent p => exact sameAllocator_onMaster s p _
  case breakSent l =>
    cases l with
    | master p => exact sameAllocator_onMaster s p _
    | axle a => exact sameAllocator_onAxle s a _
  case characterReceived l marked b =>
    simp only [eventOf]
    split
    · exact sameAllocator_correctCharacter s l marked b
    · exact .refl s

/-- A CONFIGURE answer is a refusal that changes nothing, or stores its section. -/
theorem sameAllocator_configureAnswer {s : State} (r : Option ResultCode) (n : Nat) {store : State → State}
    (h : r = none → SameAllocator s (store s)) : SameAllocator s (configureAnswer r n store s).2 := by
  rcases r with _ | c
  · exact h rfl
  · exact .refl s

/-- The state check of a CONFIGURE passes only in UNCONFIGURED and READY (R151). -/
theorem stationary_of_configureRefusal {l k st t f : Bool} (h : configureRefusal l k st t f = none) : st = true := by
  cases st
  · cases l <;> cases k <;> simp [configureRefusal] at h
  · rfl

/-- The owner of a request row other than the allocator's own leaves the allocator its own. -/
theorem sameAllocator_ownerOf {c : Instr} (h : allocatorsOwn c = false) (f : Frame) (s : State) :
    SameAllocator s (ownerOf c f s).2 := by
  have keep : ∀ t : State, t.inside = s.inside → t.resetAsserted = s.resetAsserted → t.alloc = s.alloc →
      t.config = s.config → SameAllocator s t := fun t h1 h2 h3 h4 => .of_eq h1 h2 h3 h4
  have stat : ∀ (t : State), s.alloc.state.stationary = true → t.inside = s.inside →
      t.resetAsserted = s.resetAsserted → t.alloc = { s.alloc with state := t.alloc.state } → SameAllocator s t :=
    fun t h1 h2 h3 h4 => ⟨h2, h3, h4, fun hs => absurd (h1.symm.trans hs) (by decide)⟩
  cases c <;> first
    | exact .refl s
    | skip
  case demand p => cases p; exact absurd h (by decide); exact .refl s
  case restart p => cases p; exact absurd h (by decide); exact .refl s
  case claim p => simp only [ownerOf, claimOwner]; split <;> exact keep _ rfl rfl rfl rfl
  case release p => simp only [ownerOf, releaseOwner]; split <;> (try split) <;> exact keep _ rfl rfl rfl rfl
  case hold p => simp only [ownerOf, holdOwner]; split <;> (try split) <;> (try split) <;> exact keep _ rfl rfl rfl rfl
  case resume p => simp only [ownerOf, resumeOwner]; split <;> (try split) <;> exact keep _ rfl rfl rfl rfl
  case configureEnvelope p =>
    exact sameAllocator_configureAnswer _ _ fun hr => stat _ (stationary_of_configureRefusal hr) rfl rfl rfl
  case configurePolicy p =>
    exact sameAllocator_configureAnswer _ _ fun hr => stat _ (stationary_of_configureRefusal hr) rfl rfl rfl
  case configureMotion p =>
    exact sameAllocator_configureAnswer _ _ fun _ => ⟨rfl, rfl, rfl, fun _ => ⟨rfl, rfl⟩⟩
  case configureTiming p =>
    exact sameAllocator_configureAnswer _ _ fun hr => stat _ (stationary_of_configureRefusal hr) rfl rfl rfl
  case configureLoadBands p =>
    exact sameAllocator_configureAnswer _ _ fun hr => stat _ (stationary_of_configureRefusal hr) rfl rfl rfl
  case configureSpeedBands p =>
    exact sameAllocator_configureAnswer _ _ fun hr => stat _ (stationary_of_configureRefusal hr) rfl rfl rfl
  case configureAlert p => exact sameAllocator_configureAnswer _ _ fun _ => sameAllocator_onMaster s p _
  case mapWrite p =>
    cases p
    · simp only [ownerOf, onDemandLink, mapWriteOwner]; split <;> exact keep _ rfl rfl rfl rfl
    · exact .refl s
  case mapFill p =>
    cases p
    · simp only [ownerOf, onDemandLink, mapFillOwner]; split <;> exact keep _ rfl rfl rfl rfl
    · exact .refl s
  case mapRead p => simp only [ownerOf, mapReadOwner]; split <;> exact keep _ rfl rfl rfl rfl
  case status p => exact sameAllocator_onMaster s p _

/-- A command other than the allocator's own leaves the allocator its own. -/
theorem sameAllocator_exec {c : Instr} {s t : State} (h : allocatorsOwn c = false) (he : exec c s = .next t) :
    SameAllocator s t := by
  rcases exec_cases c s with e | ⟨p, f, -, -, -, e⟩ | ⟨-, -, e⟩ | ⟨rfl, -⟩ | ⟨_, _, rfl, -⟩
  · cases he.symm.trans e; exact .refl s
  · cases he.symm.trans e
    exact (sameAllocator_taken s p).trans ((sameAllocator_ownerOf h f _).trans (sameAllocator_answered _ p f _))
  · cases he.symm.trans e; exact sameAllocator_eventOf h s
  · exact absurd h (by decide)
  · exact absurd h (by simp [allocatorsOwn])

/-- So does every event inside an allocation. -/
theorem sameAllocator_eventAfter (replying : Option MasterId) (e : InnerEvent) (s : State) :
    SameAllocator s (eventAfter replying e s) := by
  rcases eventAfter_cases replying e s with h | ⟨c, hc, h⟩
  · rw [h]; exact .refl s
  · exact sameAllocator_exec hc h

/-! ## Induction over an allocation under way -/

/-- A property of what has been read and of the state that every part and every event inside keeps is kept by the whole
allocation. -/
theorem allocating_induction {P : Allocating → State → Prop} (replying : Option MasterId) (inp : AllocInput) (s : State)
    (start : P (startAllocating replying inp s).1 (startAllocating replying inp s).2)
    (part : ∀ x w t, P w t → P (takePart x w t).1 (takePart x w t).2)
    (event : ∀ e w t, P w t → P w (eventAfter w.replying e t)) :
    P (allocating replying inp s).1 (allocating replying inp s).2 := by
  have inside : ∀ (ms : List AllocMoment) (ws : Allocating × State), P ws.1 ws.2 →
      P (ms.foldl (fun ws m => takeMoment m ws) ws).1 (ms.foldl (fun ws m => takeMoment m ws) ws).2 := by
    intro ms
    induction ms with
    | nil => intro ws h; exact h
    | cons m ms ih =>
      intro ws h
      refine ih _ ?_
      cases m with
      | part x =>
        simp only [takeMoment]
        split
        · exact h
        · exact part x ws.1 ws.2 h
      | event e => exact event e ws.1 ws.2 h
  have rest : ∀ (xs : List AllocPart) (ws : Allocating × State), P ws.1 ws.2 →
      P (xs.foldl (fun ws x => takePart x ws.1 ws.2) ws).1 (xs.foldl (fun ws x => takePart x ws.1 ws.2) ws).2 := by
    intro xs
    induction xs with
    | nil => intro ws h; exact h
    | cons x xs ih => intro ws h; exact ih _ (part x ws.1 ws.2 h)
  exact rest _ _ (inside _ _ start)

/-- The same for a property of the state alone. -/
theorem allocateWith_induction {P : State → Prop} (replying : Option MasterId) (inp : AllocInput) (s : State)
    (start : P (startAllocating replying inp s).2)
    (part : ∀ x w t, P t → P (takePart x w t).2)
    (event : ∀ c t u, allocatorsOwn c = false → exec c t = .next u → P t → P u) :
    P (allocateWith replying inp s).2 :=
  allocating_induction (P := fun _ t => P t) replying inp s start part fun e w t h => by
    rcases eventAfter_cases w.replying e t with he | ⟨c, hc, he⟩
    · rw [he]; exact h
    · exact event c t _ hc he h

end Sys2Proof.Machine
end

