-- ==== Sys2Proof/Laws/Mirror.lean ====
section
/-! SUPPORT. The mirror record of a DEMAND's allocation arrives with the reply (R94, R167): whatever falls inside the
allocation keeps the demand port's link and mirror enable, and the record then waits in the slot behind the reply. -/

namespace Sys2Proof.Machine

/-! ## What a mirror record needs -/

/-- A port's mirror enable is the same, and its link is UP where it was UP. -/
def StaysMirrored (p : MasterId) (s t : State) : Prop :=
  (t.master p).alert.mirrorEnable = (s.master p).alert.mirrorEnable ∧ ((s.master p).link = .up → (t.master p).link = .up)

theorem StaysMirrored.refl (p : MasterId) (s : State) : StaysMirrored p s s := ⟨rfl, id⟩

theorem StaysMirrored.trans {p : MasterId} {s t u : State} (h : StaysMirrored p s t) (h' : StaysMirrored p t u) :
    StaysMirrored p s u :=
  ⟨h'.1.trans h.1, fun x => h'.2 (h.2 x)⟩

/-- An update of the ports' alert units that keeps each mirror enable, and of other fields, keeps what a mirror needs. -/
theorem StaysMirrored.of_eq {p : MasterId} {s t : State}
    (ha : (t.master p).alert.mirrorEnable = (s.master p).alert.mirrorEnable) (hl : (t.master p).link = (s.master p).link) :
    StaysMirrored p s t :=
  ⟨ha, fun h => hl.trans h⟩

section Mirrored

variable (p q : MasterId) (s : State) (a : AxleId) (l : Link)

theorem staysMirrored_onAxle (g : AxleUnit → AxleUnit) : StaysMirrored p s (s.onAxle a g) := .of_eq (by simp) (by simp)

theorem staysMirrored_onMaster {g : MasterPort → MasterPort} (ha : ∀ m, (g m).alert.mirrorEnable = m.alert.mirrorEnable)
    (hl : ∀ m, (g m).link = m.link) : StaysMirrored p s (s.onMaster q g) := by
  by_cases h : p = q
  · subst h; exact .of_eq (by simp [ha]) (by simp [hl])
  · exact .of_eq (by rw [master_onMaster_of_ne s h]) (by rw [master_onMaster_of_ne s h])

theorem staysMirrored_onMaster_of_ne (g : MasterPort → MasterPort) (h : p ≠ q) : StaysMirrored p s (s.onMaster q g) :=
  .of_eq (by rw [master_onMaster_of_ne s h]) (by rw [master_onMaster_of_ne s h])

theorem staysMirrored_raiseIf (c : Bool) (f : EventFlag) : StaysMirrored p s (raiseIf c q f s) := by
  cases c
  · exact .refl p s
  · exact staysMirrored_onMaster p q s (g := fun m => { m with alert := m.alert.raise f }) (fun _ => rfl) (fun _ => rfl)

theorem staysMirrored_raiseBothIf (c : Bool) (f : EventFlag) : StaysMirrored p s (raiseBothIf c f s) :=
  .of_eq (by simp [master_raiseBothIf]) (by simp [master_raiseBothIf])

theorem staysMirrored_raiseBoth (f : EventFlag) : StaysMirrored p s (raiseBoth f s) :=
  staysMirrored_raiseBothIf p s true f

theorem staysMirrored_removeHolds : StaysMirrored p s (removeHolds q s) := by
  unfold removeHolds
  exact StaysMirrored.trans (t := { s with holds := s.holds.filter fun h => !h.heldBy q }) (.of_eq (by simp) (by simp))
    (staysMirrored_raiseIf p _ _ _ _)

theorem staysMirrored_orphanClaims : StaysMirrored p s (orphanClaims q s) := by
  unfold orphanClaims
  exact StaysMirrored.trans (t := { s with table := s.table.map fun e =>
        if e.source = q.source then e.orphan s.config.timing.orphanLifetime else e }) (.of_eq (by simp) (by simp))
    (staysMirrored_raiseIf p _ _ _ _)

theorem staysMirrored_setReceiver (r : Receiver) : StaysMirrored p s (s.setReceiver l r) := by
  cases l
  · exact staysMirrored_onMaster p _ s (fun _ => rfl) (fun _ => rfl)
  · exact staysMirrored_onAxle p s _ _

theorem staysMirrored_setLink_up : StaysMirrored p s (s.setLink l .up) := by
  rcases l with q | a
  · by_cases h : p = q
    · subst h; exact ⟨by simp [State.setLink], fun _ => by simp [State.setLink]⟩
    · exact staysMirrored_onMaster_of_ne p q s _ h
  · exact staysMirrored_onAxle p s _ _

theorem staysMirrored_goOffline : StaysMirrored p s (goOffline a s) := by
  rcases goOffline_cases a s with ⟨-, h⟩ | ⟨-, h⟩ <;> rw [h]
  · exact .refl p s
  · exact StaysMirrored.trans (t := removeInverterClaims a (s.onAxle a AxleUnit.loseAxle))
      (.of_eq (by simp [removeInverterClaims]) (by simp [removeInverterClaims])) (staysMirrored_raiseBoth p _ _)

theorem staysMirrored_miss : StaysMirrored p s (miss a s) := by
  unfold miss
  split <;> (try split) <;> first
    | exact .refl p s
    | exact staysMirrored_goOffline p s a
    | exact staysMirrored_onAxle p s a _

theorem staysMirrored_countMiss : StaysMirrored p s (countMiss a s) := by
  unfold countMiss
  split
  · exact (staysMirrored_onAxle p s a _).trans (staysMirrored_miss p _ a)
  · exact staysMirrored_onAxle p s a _

theorem staysMirrored_derateIntake (k : ClaimKind) (d : Derate) : StaysMirrored p s (derateIntake a k d s) := by
  unfold derateIntake
  split
  · exact .refl p s
  · exact .of_eq (by simp) (by simp)
  · split
    · exact staysMirrored_raiseBoth p s _
    · exact (StaysMirrored.of_eq (by simp) (by simp)).trans (staysMirrored_raiseBothIf p _ _ _)

theorem staysMirrored_readyAnswer : StaysMirrored p s (readyAnswer a s) := by
  have good : ∀ n, StaysMirrored p s (countGood a n s) := by
    intro n
    unfold countGood goOnline
    split
    · exact (staysMirrored_onAxle p s a _).trans (staysMirrored_raiseBoth p _ _)
    · exact staysMirrored_onAxle p s a _
  unfold readyAnswer
  split <;> first | exact good _ | exact staysMirrored_onAxle p s a _ | exact .refl p s

theorem staysMirrored_feedbackTaken (f : Frame) : StaysMirrored p s (feedbackTaken a f s) := by
  unfold feedbackTaken matchedFeedback derateHandoff
  split
  · exact staysMirrored_raiseBoth p s _
  · split
    · split
      · exact (staysMirrored_onAxle p s a _).trans ((staysMirrored_readyAnswer p _ a).trans
          ((staysMirrored_derateIntake p _ a _ _).trans (staysMirrored_derateIntake p _ a _ _)))
      · exact (staysMirrored_onAxle p s a _).trans (staysMirrored_goOffline p _ a)
    · exact staysMirrored_raiseBoth p s _

theorem staysMirrored_masterFrameTaken (f : Frame) : StaysMirrored p s (masterFrameTaken q f s) := by
  unfold masterFrameTaken
  split
  · exact staysMirrored_onMaster p q s (fun _ => rfl) (fun _ => rfl)
  · exact staysMirrored_raiseIf p q s true _

theorem staysMirrored_frameTaken (f : Frame) : StaysMirrored p s (frameTaken l f s) := by
  cases l with
  | master q => exact staysMirrored_masterFrameTaken p q s f
  | axle a =>
    simp only [frameTaken, axleFrameTaken]
    split
    · exact staysMirrored_feedbackTaken p s a f
    · exact staysMirrored_raiseBoth p s _

theorem staysMirrored_faultTo (k : LinkFault) (r : Receiver) : StaysMirrored p s (faultTo l k r s) := by
  refine (staysMirrored_setReceiver p s l r).trans ?_
  cases l with
  | master q => exact staysMirrored_onMaster p q _ (fun _ => rfl) (fun _ => rfl)
  | axle a => exact staysMirrored_raiseBoth p _ _

theorem staysMirrored_correctCharacter (marked : Bool) (b : Byte) :
    StaysMirrored p s (correctCharacter l marked b s) := by
  unfold correctCharacter payloadCharacter
  split <;> (try split) <;> (try split) <;> first
    | exact staysMirrored_setReceiver p s l _
    | exact staysMirrored_faultTo p s l _ _
    | exact .refl p s
    | exact (staysMirrored_setReceiver p s l _).trans (staysMirrored_frameTaken p _ l _)

end Mirrored

/-- An event row other than the allocator's own and a break of the port's own link keeps what its mirror needs. -/
theorem staysMirrored_eventOf {c : Instr} {p : MasterId} (h : allocatorsOwn c = false) (hb : c ≠ .masterLinkBreak p)
    (s : State) : StaysMirrored p s (eventOf c s) := by
  have fs : ∀ m : MasterPort, m.frameSent.alert.mirrorEnable = m.alert.mirrorEnable ∧ m.frameSent.link = m.link := by
    intro m; unfold MasterPort.frameSent; split <;> simp
  have be : ∀ m : MasterPort, m.breakEnded.alert.mirrorEnable = m.alert.mirrorEnable ∧ m.breakEnded.link = m.link := by
    intro m; unfold MasterPort.breakEnded; split <;> simp
  cases c <;> first
    | exact .refl p s
    | exact absurd h (by decide)
    | skip
  case commandComplete a =>
    simp only [eventOf]
    split <;> first
      | exact (staysMirrored_countMiss p s a).trans (staysMirrored_onAxle p _ a _)
      | exact staysMirrored_onAxle p s a _
      | exact .refl p s
  case feedbackWindowExpiry a =>
    simp only [eventOf]
    split <;> first | exact staysMirrored_countMiss p s a | exact .refl p s
  case feedback a =>
    simp only [eventOf]
    split <;> (try split) <;> first
      | exact (staysMirrored_setReceiver p s _ _).trans (staysMirrored_feedbackTaken p _ a _)
      | exact .refl p s
  case axleForeignFrame a =>
    simp only [eventOf]
    split <;> (try split) <;> first
      | exact (staysMirrored_setReceiver p s _ _).trans (staysMirrored_raiseBoth p _ _)
      | exact .refl p s
  case frameReceived q =>
    simp only [eventOf]
    split <;> (try split) <;> first
      | exact (staysMirrored_setReceiver p s _ _).trans (staysMirrored_masterFrameTaken p q _ _)
      | exact .refl p s
  case receiveFault l k =>
    simp only [eventOf]
    split <;> (try split) <;> first
      | exact staysMirrored_faultTo p s l _ _
      | exact .refl p s
  case frameGapTimeout l =>
    simp only [eventOf, idleGap]
    split <;> (try split) <;> first
      | exact staysMirrored_setReceiver p s l _
      | exact staysMirrored_faultTo p s l _ _
      | exact .refl p s
  case masterLinkBreak q =>
    have hq : p ≠ q := fun h => hb (by rw [h])
    simp only [eventOf]
    split
    · exact (staysMirrored_onMaster_of_ne p q s _ hq).trans
        ((staysMirrored_removeHolds p q _).trans (staysMirrored_orphanClaims p q _))
    · exact .refl p s
  case axleLinkBreak a =>
    simp only [eventOf]
    split
    · exact (staysMirrored_onAxle p s a _).trans
        ((staysMirrored_goOffline p _ a).trans (staysMirrored_raiseBoth p _ _))
    · exact .refl p s
  case linkUp l =>
    simp only [eventOf]
    split
    · exact .refl p s
    · exact (staysMirrored_setLink_up p s l).trans (staysMirrored_setReceiver p _ l _)
  case masterFrameSent q => exact staysMirrored_onMaster p q s (fun m => (fs m).1) (fun m => (fs m).2)
  case breakSent l =>
    cases l with
    | master q => exact staysMirrored_onMaster p q s (fun m => (be m).1) (fun m => (be m).2)
    | axle a => exact staysMirrored_onAxle p s a _
  case characterReceived l marked b =>
    simp only [eventOf]
    split
    · exact staysMirrored_correctCharacter p s l marked b
    · exact .refl p s

/-- The owner of a request row of another port than `p`, not the allocator's own, keeps what the mirror of `p` needs. -/
theorem staysMirrored_ownerOf {c : Instr} {p q : MasterId} (h : allocatorsOwn c = false) (hc : requestPort c = some q)
    (hq : p ≠ q) (f : Frame) (s : State) : StaysMirrored p s (ownerOf c f s).2 := by
  have keep : ∀ t : State, t.master p = s.master p → StaysMirrored p s t := fun t h => .of_eq (by rw [h]) (by rw [h])
  have conf : ∀ (r : Option ResultCode) (n : Nat) (store : State → State), StaysMirrored p s (store s) →
      StaysMirrored p s (configureAnswer r n store s).2 := by
    intro r n store hs
    rcases r with _ | _
    · exact hs
    · exact .refl p s
  cases c <;> cases hc <;> first
    | exact .refl p s
    | skip
  case demand => cases q; exact absurd h (by decide); exact .refl p s
  case restart => cases q; exact absurd h (by decide); exact .refl p s
  case claim => simp only [ownerOf, claimOwner]; split <;> exact keep _ (by simp [refuse])
  case release => simp only [ownerOf, releaseOwner]; split <;> (try split) <;> exact keep _ (by simp [refuse])
  case hold => simp only [ownerOf, holdOwner]; split <;> (try split) <;> (try split) <;> exact keep _ (by simp [refuse])
  case resume => simp only [ownerOf, resumeOwner]; split <;> (try split) <;> exact keep _ (by simp [refuse])
  case configureEnvelope => exact conf _ _ _ (keep _ (by cases p <;> rfl))
  case configurePolicy => exact conf _ _ _ (keep _ (by cases p <;> rfl))
  case configureMotion => exact conf _ _ _ (keep _ (by cases p <;> rfl))
  case configureTiming => exact conf _ _ _ (keep _ (by cases p <;> rfl))
  case configureLoadBands => exact conf _ _ _ (keep _ (by cases p <;> rfl))
  case configureSpeedBands => exact conf _ _ _ (keep _ (by cases p <;> rfl))
  case configureAlert => exact conf _ _ _ (staysMirrored_onMaster_of_ne p q s _ hq)
  case mapWrite =>
    cases q
    · simp only [ownerOf, onDemandLink, mapWriteOwner]; split <;> exact keep _ (by simp [refuse])
    · exact .refl p s
  case mapFill =>
    cases q
    · simp only [ownerOf, onDemandLink, mapFillOwner]; split <;> exact keep _ (by simp [refuse])
    · exact .refl p s
  case mapRead => simp only [ownerOf, mapReadOwner]; split <;> exact .refl p s
  case status => exact staysMirrored_onMaster_of_ne p q s _ hq

/-- A command other than the allocator's own, a request of the port or a break of its link keeps what its mirror needs. -/
theorem staysMirrored_exec {c : Instr} {p : MasterId} {s t : State} (h : allocatorsOwn c = false)
    (hp : requestPort c ≠ some p) (hb : c ≠ .masterLinkBreak p) (he : exec c s = .next t) : StaysMirrored p s t := by
  rcases exec_cases c s with e | ⟨q, f, hc, -, -, e⟩ | ⟨-, -, e⟩ | ⟨rfl, -⟩ | ⟨_, _, rfl, -⟩
  · cases he.symm.trans e; exact .refl p s
  · have hq : p ≠ q := fun x => hp (by rw [x]; exact hc)
    cases he.symm.trans e
    exact (staysMirrored_onMaster_of_ne p q s _ hq).trans ((staysMirrored_ownerOf h hc hq f _).trans
      (staysMirrored_onMaster_of_ne p q _ _ hq))
  · cases he.symm.trans e; exact staysMirrored_eventOf h hb s
  · exact absurd h (by decide)
  · exact absurd h (by simp [allocatorsOwn])

/-- So does every event inside an allocation for which the port waits: its own requests and break fall outside. -/
theorem staysMirrored_eventAfter (p : MasterId) (e : InnerEvent) (s : State) :
    StaysMirrored p s (eventAfter (some p) e s) := by
  have row : ∀ c, allocatorsOwn c = false → requestPort c ≠ some p → c ≠ .masterLinkBreak p →
      eventOutcome (some p) e s = exec c s → StaysMirrored p s (eventAfter (some p) e s) := by
    intro c h hp hb he
    obtain ⟨t, ht⟩ := exec_next c s
    rw [eventAfter, he, ht]
    exact staysMirrored_exec h hp hb ht
  cases e with
  | request q =>
    by_cases h : p = q
    · subst h; simp [eventAfter, eventOutcome, StaysMirrored.refl]
    · rcases requestInside_cases q s with hq | ⟨c, hc, hr, hq⟩
      · simp [eventAfter, eventOutcome, hq, h, StaysMirrored.refl]
      · refine row c hc (by rw [hr]; simpa using fun x => h x.symm) ?_ (by simp [eventOutcome, h, hq])
        rintro rfl; cases hr
  | masterLinkBreak q =>
    by_cases h : p = q
    · subst h; simp [eventAfter, eventOutcome, StaysMirrored.refl]
    · exact row (.masterLinkBreak q) rfl (by simp [requestPort]) (by simpa using fun x => h x.symm)
        (by simp [eventOutcome, h, exec])
  | commandComplete a => exact row (.commandComplete a) rfl (by simp [requestPort]) (by simp) rfl
  | feedbackWindowExpiry a => exact row (.feedbackWindowExpiry a) rfl (by simp [requestPort]) (by simp) rfl
  | feedback a => exact row (.feedback a) rfl (by simp [requestPort]) (by simp) rfl
  | axleForeignFrame a => exact row (.axleForeignFrame a) rfl (by simp [requestPort]) (by simp) rfl
  | frameReceived q => exact row (.frameReceived q) rfl (by simp [requestPort]) (by simp) rfl
  | receiveFault l c => exact row (.receiveFault l c) rfl (by simp [requestPort]) (by simp) rfl
  | frameGapTimeout l => exact row (.frameGapTimeout l) rfl (by simp [requestPort]) (by simp) rfl
  | axleLinkBreak a => exact row (.axleLinkBreak a) rfl (by simp [requestPort]) (by simp) rfl
  | linkUp l => exact row (.linkUp l) rfl (by simp [requestPort]) (by simp) rfl
  | masterFrameSent q => exact row (.masterFrameSent q) rfl (by simp [requestPort]) (by simp) rfl
  | breakSent l => exact row (.breakSent l) rfl (by simp [requestPort]) (by simp) rfl
  | characterReceived l m b => exact row (.characterReceived l m b) rfl (by simp [requestPort]) (by simp) rfl

/-- So does every part of an allocation. -/
theorem staysMirrored_takePart (p : MasterId) (x : AllocPart) (w : Allocating) (s : State) :
    StaysMirrored p s (takePart x w s).2 := by
  rcases takePart_state x w s with h | h | ⟨_, h⟩ | ⟨-, h⟩ | ⟨_, -, h⟩ | ⟨q, -, h⟩ <;> rw [h]
  · exact .refl p s
  · exact .of_eq (by simp [claimTableAct_master]) (by simp [claimTableAct_master])
  · exact .of_eq (by simp) (by simp)
  · exact .of_eq (by simp [recordAllocation, master_raiseBothIf]) (by simp [recordAllocation, master_raiseBothIf])
  · exact .of_eq (by simp [commandHandoff_master]) (by simp [commandHandoff_master])
  · unfold mirrorHandOver
    refine staysMirrored_onMaster p q s (fun m => ?_) (fun m => ?_) <;> split <;> simp

/-! ## Parts once everything has been read -/

/-- A part marks at most itself as done, and the port that waits for the reply stays the same. -/
theorem takePart_done (x : AllocPart) (w : Allocating) (s : State) :
    (takePart x w s).1.replying = w.replying
      ∧ ((takePart x w s).1.done = w.done ∨ (takePart x w s).1.done = x :: w.done) := by
  have once : ∀ k : Allocation → State → State, (w.once x s k).1.replying = w.replying
      ∧ ((w.once x s k).1.done = w.done ∨ (w.once x s k).1.done = x :: w.done) := by
    intro k
    unfold Allocating.once
    split
    · exact ⟨rfl, .inr rfl⟩
    · exact ⟨rfl, .inl rfl⟩
  rcases x with _ | a | _ | _ | a | p
  · simp only [takePart]; split <;> exact ⟨rfl, .inl rfl⟩
  · cases a <;> (simp only [takePart]; split <;> exact ⟨rfl, .inl rfl⟩)
  · simp only [takePart]; split <;> exact ⟨rfl, .inl rfl⟩
  · exact once _
  · exact once _
  · exact once _

/-- After the first four parts everything has been read. -/
theorem complete_of_reads (w : Allocating) (s : State) :
    (([.claimTable, .read .front, .read .rear, .share] : List AllocPart).foldl (fun ws x => takePart x ws.1 ws.2)
      (w, s)).1.complete = true := by
  obtain ⟨i, r, q, n, b, f, g, l, d⟩ := w
  rcases b with _ | b <;> rcases f with _ | f <;> rcases g with _ | g <;> rcases l with _ | l <;> rfl

/-- What is formed from everything that has been read depends on nothing else (R95). -/
theorem formed_of_complete {w : Allocating} (h : w.complete = true) (d : List AllocPart) (s t : State) :
    Allocating.formed { w with done := d } t = w.formed s := by
  obtain ⟨i, r, q, n, b, f, g, l, e⟩ := w
  rcases b with _ | b <;> rcases f with _ | f <;> rcases g with _ | g <;> rcases l with _ | l <;>
    first | rfl | cases h

/-- Once everything has been read a part only marks itself as done. -/
theorem complete_takePart {w : Allocating} (h : w.complete = true) (x : AllocPart) (s : State) :
    (takePart x w s).1 = w ∨ (takePart x w s).1 = { w with done := x :: w.done } := by
  obtain ⟨i, r, q, n, b, f, g, l, e⟩ := w
  rcases b with _ | b <;> rcases f with _ | f <;> rcases g with _ | g <;> rcases l with _ | l <;>
    try cases h
  rcases x with _ | a | _ | _ | a | p
  · exact .inl rfl
  · cases a <;> exact .inl rfl
  · exact .inl rfl
  all_goals (simp only [takePart, Allocating.once]; split <;> first | exact .inl rfl | exact .inr rfl)

/-! ## The mirror record behind the reply -/

/-- On the UP demand link with mirror enabled, the result record of a DEMAND's allocation waits in the mirror slot until the
reply is placed, whatever falls inside (R94, R167). -/
theorem allocateWith_mirrorSlot {inp : AllocInput} {s : State} (he : s.demandPort.alert.mirrorEnable = true)
    (hl : s.demandPort.link = .up) :
    (allocateWith (some .demand) inp s).2.demandPort.mirrorSlot
      = some (allocateWith (some .demand) inp s).1.result := by
  let Q : Allocating × State → Prop := fun ws =>
    ws.1.replying = some .demand ∧ .mirror .demand ∉ ws.1.done ∧ StaysMirrored .demand s ws.2
  have part : ∀ x ws, x ≠ .mirror .demand → Q ws → Q (takePart x ws.1 ws.2) := by
    rintro x ⟨w, t⟩ hx ⟨h1, h2, h3⟩
    obtain ⟨hr, hd⟩ := takePart_done x w t
    refine ⟨hr.trans h1, ?_, h3.trans (staysMirrored_takePart _ _ _ _)⟩
    rcases hd with hd | hd <;> rw [hd]
    · exact h2
    · simpa [h2] using fun h => hx h.symm
  have inside : ∀ (ms : List AllocMoment) (ws : Allocating × State), Q ws →
      Q (ms.foldl (fun ws m => takeMoment m ws) ws) := by
    intro ms
    induction ms with
    | nil => intro ws h; exact h
    | cons m ms ih =>
      intro ws h
      refine ih _ ?_
      cases m with
      | part x =>
        simp only [takeMoment]
        split
        · exact h
        · next hw => exact part x ws (by rintro rfl; simp [withReply, h.1] at hw) h
      | event e =>
        refine ⟨h.1, h.2.1, h.2.2.trans ?_⟩
        have := staysMirrored_eventAfter .demand e ws.2
        rw [← h.1] at this
        exact this
  have start : Q (startAllocating (some .demand) inp s) := ⟨rfl, by simp [startAllocating], .of_eq rfl rfl⟩
  have h0 := inside (s.inside.headD []) _ start
  generalize hws : (s.inside.headD []).foldl (fun ws m => takeMoment m ws) (startAllocating (some .demand) inp s) = ws at h0
  let four : List AllocPart := [.claimTable, .read .front, .read .rear, .share]
  let take : AllocPart → Allocating × State → Allocating × State := fun x ws => takePart x ws.1 ws.2
  have h4 : Q (four.foldl (fun ws x => takePart x ws.1 ws.2) ws) :=
    part .share _ (by simp) (part (.read .rear) _ (by simp) (part (.read .front) _ (by simp)
      (part .claimTable ws (by simp) h0)))
  have hc := complete_of_reads ws.1 ws.2
  have hsplit : allocating (some .demand) inp s = take (.mirror .stability) (take (.mirror .demand)
      (take (.handOver .rear) (take (.handOver .front) (take .record
        (four.foldl (fun ws x => takePart x ws.1 ws.2) ws))))) := by
    rw [allocating, hws]; rfl
  have done : ∀ x v, v.1.complete = true → (take x v).1.complete = true := by
    intro x v hv
    rcases complete_takePart hv x v.2 with h | h
    · exact (congrArg Allocating.complete h).trans hv
    · exact (congrArg Allocating.complete h).trans hv
  generalize hv : take (.handOver .rear) (take (.handOver .front) (take .record
        (four.foldl (fun ws x => takePart x ws.1 ws.2) ws))) = v at hsplit
  have hQ : Q v := by
    rw [← hv]
    exact part _ _ (by simp) (part _ _ (by simp) (part _ _ (by simp) h4))
  have hcv : v.1.complete = true := by rw [← hv]; exact done _ _ (done _ _ (done _ _ hc))
  obtain ⟨w, t⟩ := v
  obtain ⟨h1, h2, h3, h5⟩ := hQ
  have hm : take (.mirror .demand) (w, t) = ({ w with done := .mirror .demand :: w.done },
      t.onMaster .demand (MasterPort.mirrorHandoff (w.formed t).result)) := by
    simp only [take, takePart, Allocating.once]
    rw [if_pos (by simpa [hcv] using h2), ← mirrorHandOver_replying, h1]
  have hs : ∀ v : Allocating × State, v.1.complete = true →
      ((take (.mirror .stability) v).1.formed (take (.mirror .stability) v).2 = v.1.formed v.2)
        ∧ (take (.mirror .stability) v).2.demandPort = v.2.demandPort := by
    rintro ⟨w, t⟩ hw
    simp only [take, takePart, Allocating.once]
    split
    · exact ⟨formed_of_complete hw _ _ _, rfl⟩
    · exact ⟨rfl, rfl⟩
  obtain ⟨e1, e2⟩ := hs (take (.mirror .demand) (w, t)) (done _ _ hcv)
  rw [hm] at e1 e2 hsplit
  have hf := formed_of_complete hcv (.mirror .demand :: w.done) t
    (t.onMaster .demand (MasterPort.mirrorHandoff (w.formed t).result))
  have ha : t.demandPort.alert.mirrorEnable = true := h3.trans he
  have hu : t.demandPort.link = .up := h5 hl
  rw [allocateWith, hsplit, congrArg Allocation.result (e1.trans hf), e2]
  show (t.demandPort.mirrorHandoff _).mirrorSlot = _
  simp [MasterPort.mirrorHandoff, ha, hu]
end Sys2Proof.Machine
end

