-- ==== Sys2Proof/Tests/Slice0.lean ====
section
/-! SUPPORT. The model's own tests: ill-formed terms that the checks refuse, frames written out from spec/, the replies
and effects of single commands on small states, and for each statement with hypotheses a case that meets them. -/

set_option Elab.async false

namespace Sys2Proof.Tests

open Sys2Proof.Machine

/-! ## Small states -/

/-- The part just after reset with its allocator in state `st` and the timers that go with it. -/
def part (st : AllocState) : State :=
  { State.reset with
    alloc := { Allocator.powerOn with
      state := st
      lapseTimer := if st = .running then .running 12 else .stopped
      lapseStepTimer := if st = .lapsed then .running 2 else .stopped }
    holds := if st = .lapsed then [⟨.allocator, .lapse, 500, true, 0#8⟩] else [] }

/-- Frame `f` waiting alone at the decoder of port `p`. -/
def waiting (p : MasterId) (f : Frame) (s : State) : State :=
  s.onMaster p fun m => { m with rxQueue := [f] }

/-- Both axles changed by `g`. -/
def axles (g : AxleUnit → AxleUnit) (s : State) : State :=
  { s with front := g s.front, rear := g s.rear }

/-- An ONLINE axle on an UP link with an idle transmitter. -/
def onlineAxle (u : AxleUnit) : AxleUnit :=
  { u with link := .up, tx := .idle, state := .online }

/-- The part RUNNING with both axles ONLINE. -/
def driving : State := axles onlineAxle (part .running)

/-- A link UP whose receiver has assembled `f` but for its check character. -/
def assembled (l : Link) (f : Frame) (s : State) : State :=
  (s.setLink l .up).setReceiver l (.awaitPayload f.kind f.payload.length f.payload)

/-- The state after a command, or the state itself where there is no next state. -/
def after (c : Instr) (s : State) : State :=
  match exec c s with
  | .next t => t
  | .fault _ => s
  | .refused _ => s

/-- The last frame that port `p` has to send after a command. -/
def lastSent (c : Instr) (p : MasterId) (s : State) : Option Frame :=
  ((after c s).master p).outgoing.getLast?

/-- A claim entry of the demand link with no marks. -/
def entry (axle : ClaimAxle) (kind : ClaimKind) (v : Int) : ClaimEntry :=
  ⟨.demand, axle, kind, v, none, 0#8, false, false, false⟩

/-- A waiting frame is ready to be taken. -/
theorem ready_waiting (p : MasterId) (f : Frame) {s : State} (hs : s.resetAsserted = false)
    (hq : (s.master p).replyQueue.length < 4) : Ready p f (waiting p f s) := by
  cases p <;> exact ⟨hs, rfl, hq⟩

theorem ready_part (p : MasterId) (f : Frame) (st : AllocState) : Ready p f (waiting p f (part st)) := by
  cases p <;> cases st <;> exact ready_waiting _ _ rfl (by decide)

/-! ## Frames of the tests -/

/-- The DEMAND of spec/09: sequence 11h, 6,200 in total, 41.2 km/h, load ratio 61. -/
def demandFrame : Frame := ⟨0x21#8, [0x11#8, 0x18#8, 0x38#8, 0x01#8, 0x9C#8, 0x3D#8, 0x00#8]⟩

/-- CLAIM of a CEILING on FRONT, value given, no lifetime, tag 5. -/
def ceilingClaim (v : Int) : Frame := (Request.claim ⟨0#8, 0#8, v, 0, 5#8, 0#8⟩).frame

def envelopeFrame : Frame := (Request.envelope ⟨16000, -16000, 1, -1, 32000, -32000⟩).frame

/-! ## Well-formedness -/

theorem test_longPayload_refused : (Frame.mk 0x70#8 (List.replicate 25 0#8)).wellFormed (.master .demand) = false := by
  decide
theorem test_longestPayload_accepted :
    (Frame.mk 0x70#8 (List.replicate 24 0#8)).wellFormed (.master .demand) = true := by decide
theorem test_demandLength_refused : (Frame.mk 0x21#8 (List.replicate 6 0#8)).wellFormed (.master .demand) = false := by
  decide
theorem test_configureEmpty_refused : (Frame.mk 0x51#8 []).wellFormed (.master .stability) = false := by decide
theorem test_mapWriteLength_refused :
    (Frame.mk 0x52#8 (List.replicate 20 0#8)).wellFormed (.master .demand) = false := by decide
theorem test_statusLength_refused : (Frame.mk 0x61#8 [0#8]).wellFormed (.master .demand) = false := by decide
theorem test_feedbackLength_refused : (Frame.mk 0x91#8 (List.replicate 8 0#8)).wellFormed (.axle .rear) = false := by
  decide
theorem test_requestFields_refused :
    (Request.demand ⟨0#8, 32768, 0, 0, 0#8⟩).wellFormed = false
      ∧ (Request.demand ⟨0#8, 0, -32769, 0, 0#8⟩).wellFormed = false
      ∧ (Request.demand ⟨0#8, 0, 0, 256, 0#8⟩).wellFormed = false
      ∧ (Request.claim ⟨0#8, 0#8, 32768, 0, 0#8, 0#8⟩).wellFormed = false
      ∧ (Request.claim ⟨0#8, 0#8, 0, 256, 0#8, 0#8⟩).wellFormed = false
      ∧ (Request.hold ⟨0#8, 65536, 0#8⟩).wellFormed = false
      ∧ (Request.envelope ⟨32768, -1, 1, -1, 1, -1⟩).wellFormed = false
      ∧ (Request.motion ⟨65536, 1, 1, 1⟩).wellFormed = false
      ∧ (Request.timing ⟨256, 1, 10, 1, 1, 1⟩).wellFormed = false := by decide
theorem test_requestLists_refused :
    (Request.loadBands (List.replicate 12 1)).wellFormed = false ∧ (Request.loadBands [256]).wellFormed = false
      ∧ (Request.speedBands (List.replicate 12 1)).wellFormed = false ∧ (Request.speedBands [256]).wellFormed = false
      ∧ (Request.mapWrite ⟨256, 0, 1, [0]⟩).wellFormed = false
      ∧ (Request.mapWrite ⟨0, 0, 9, List.replicate 9 0⟩).wellFormed = false
      ∧ (Request.mapWrite ⟨0, 0, 1, [65536]⟩).wellFormed = false ∧ (Request.mapFill 65536).wellFormed = false
      ∧ (Request.mapRead 256).wellFormed = false ∧ (Request.listClaims 256).wellFormed = false := by decide

/-! ## Frames written out from spec/ -/

theorem test_demandFrame_fields : readDemand demandFrame = ⟨0x11#8, 6200, 412, 61, 0#8⟩ := by decide
theorem test_demandFrame_characters : demandFrame.characters.map readCharacter
    = [.correct true 0x21#8, .correct false 0x07#8, .correct false 0x11#8, .correct false 0x18#8, .correct false 0x38#8,
        .correct false 0x01#8, .correct false 0x9C#8, .correct false 0x3D#8, .correct false 0x00#8,
        .correct false 0x9D#8] := by decide
/-- The kind character of spec/09: start 0; data 1, 0, 0, 0, 0, 1, 0, 0; mark 1; parity 1; stop 1. -/
theorem test_kindCharacter_bits : (List.range 12).map (lineCharacter true 0x21#8).getLsbD
    = [false, true, false, false, false, false, true, false, false, true, true, true] := by decide
/-- Start high is noise; stop low is FRAMING, with the parity wrong too; parity alone wrong is PARITY. -/
theorem test_faultyCharacters : readCharacter (lineCharacter true 0x21#8 ^^^ 0x001#12) = .noise
    ∧ readCharacter (lineCharacter true 0x21#8 ^^^ 0x800#12) = .framing
    ∧ readCharacter (lineCharacter true 0x21#8 ^^^ 0xC00#12) = .framing
    ∧ readCharacter (lineCharacter true 0x21#8 ^^^ 0x400#12) = .parity := by decide
theorem test_statusFrame_check : (Frame.mk 0x61#8 []).check = 0x9F#8 := by decide
theorem test_signedField : signedBytes (-3200) = [0xF3#8, 0x80#8] := by decide
theorem test_replyKinds : replyKind 0x21#8 = 0xA1#8 ∧ replyKind 0x20#8 = 0xFF#8 ∧ replyKind 0xA0#8 = 0xFF#8 := by decide
theorem test_rows : decodeRequest .demand demandFrame = .demand .demand
    ∧ decodeRequest .stability ⟨0x51#8, [8#8]⟩ = .configureUnknownSection .stability
    ∧ decodeRequest .demand ⟨0x51#8, [7#8, 0#8, 1#8, 1#8]⟩ = .configureAlert .demand
    ∧ decodeRequest .demand ⟨0x20#8, []⟩ = .unknownRequest .demand := by decide
theorem test_feedback_fields : readFeedback ⟨0x91#8, [7#8, 1#8, 0xF3#8, 0x80#8, 0#8, 9#8, 0x02#8, 0xFF#8, 0x38#8]⟩
    = ⟨7#8, true, -3200, 9, false, true, false, false, -200, -200⟩ := by decide
theorem test_tableWords : decodeTableWord 32 5 = none ∧ State.reset.withFetchWord 32 5 = State.reset := by
  refine ⟨rfl, rfl⟩

/-! ## Single commands: requests -/

theorem test_demand_notConfigured :
    lastSent (.demand .demand) .demand (waiting .demand demandFrame State.reset) = some ⟨0xA1#8, [0x11#8]⟩ := by
  decide +kernel
/-- Front load 61, speed 41: map share 500, live share 500; 6,200 splits to 3,100 each; the slew of 400 limits both. -/
theorem test_demand_accepted :
    lastSent (.demand .demand) .demand (waiting .demand demandFrame driving)
      = some ⟨0xA1#8, [0x00#8, 0x01#8, 0x11#8, 0x02#8, 0x01#8, 0x90#8, 0x01#8, 0x90#8, 0x00#8, 0x00#8, 0x01#8, 0xF4#8,
          0x01#8, 0x01#8, 0x22#8, 0#8, 0#8, 0#8, 0#8, 0#8, 0#8, 0#8, 0#8]⟩ := by decide +kernel
theorem test_demand_command :
    (after (.demand .demand) (waiting .demand demandFrame driving)).front.tx
      = .sending ⟨1#8, .drive, 400, 4800, -3200⟩ false := by decide +kernel
theorem test_claim_clamped :
    lastSent (.claim .demand) .demand (waiting .demand (ceilingClaim 4801) (part .ready))
      = some ⟨0xB1#8, [0x01#8, 0x12#8, 0xC0#8]⟩ := by decide +kernel
theorem test_claim_tightenRefusesLooser :
    lastSent (.claim .stability) .stability (waiting .stability (ceilingClaim 101)
        { part .ready with table := [{ entry .front .ceiling 100 with source := .stability }] })
      = some ⟨0xB1#8, [0x15#8]⟩ := by decide +kernel
theorem test_release_noSuchClaim :
    lastSent (.release .demand) .demand (waiting .demand ⟨0x32#8, [1#8, 2#8]⟩ State.reset)
      = some ⟨0xB2#8, [0x17#8]⟩ := by decide +kernel
theorem test_releaseAll_counts :
    lastSent (.releaseAll .demand) .demand
        (waiting .demand ⟨0x33#8, []⟩ { part .ready with table := [entry .front .ceiling 1, entry .rear .slew 2] })
      = some ⟨0xB3#8, [0#8, 2#8]⟩ := by decide +kernel
theorem test_hold_captures :
    lastSent (.hold .stability) .stability (waiting .stability ⟨0x41#8, [0#8, 0#8, 0#8, 9#8]⟩ (part .ready))
      = some ⟨0xC1#8, [0#8, 1#8, 0x01#8, 0xF4#8]⟩ := by decide +kernel
theorem test_resume_notHolder :
    lastSent (.resume .demand) .demand (waiting .demand ⟨0x42#8, []⟩ (part .lapsed)) = some ⟨0xC2#8, [0x1A#8]⟩ := by
  decide +kernel
theorem test_configureEnvelope_ready :
    (after (.configureEnvelope .demand) (waiting .demand envelopeFrame State.reset)).alloc.state = .ready := by
  decide +kernel
theorem test_configureEnvelope_reply :
    lastSent (.configureEnvelope .demand) .demand (waiting .demand envelopeFrame State.reset)
      = some ⟨0xD1#8, [0#8, 1#8]⟩ := by decide +kernel
theorem test_configurePolicy_wrongState :
    lastSent (.configurePolicy .demand) .demand (waiting .demand ⟨0x51#8, [2#8, 0#8, 0#8, 0#8, 0#8, 0#8, 0#8]⟩
        (part .running)) = some ⟨0xD1#8, [0x12#8]⟩ := by decide +kernel
theorem test_configureMotion_whileRunning :
    (after (.configureMotion .demand) (waiting .demand (Request.motion ⟨1000, 16000, 1, 2⟩).frame (part .running))).config.motion
      = ⟨1000, 16000, 1, 2⟩ := by decide +kernel
theorem test_configureTiming_badField :
    lastSent (.configureTiming .demand) .demand (waiting .demand (Request.timing ⟨1, 1, 10, 1, 1, 1⟩).frame State.reset)
      = some ⟨0xD1#8, [0x13#8]⟩ := by decide +kernel
theorem test_configureLoadBands_order :
    lastSent (.configureLoadBands .demand) .demand (waiting .demand (Request.loadBands [50, 50]).frame State.reset)
      = some ⟨0xD1#8, [0x13#8]⟩ := by decide +kernel
theorem test_configureSpeedBands_stored :
    (after (.configureSpeedBands .demand) (waiting .demand (Request.speedBands [1, 250]).frame State.reset)).config.speedBands
      = [1, 250] := by decide +kernel
theorem test_configureAlert_reservedPosition :
    lastSent (.configureAlert .stability) .stability (waiting .stability (Request.alert 0x4000#16 1#8).frame State.reset)
      = some ⟨0xD1#8, [0x13#8]⟩ := by decide +kernel
theorem test_configureUnknownSection_badField :
    lastSent (.configureUnknownSection .stability) .stability (waiting .stability ⟨0x51#8, [0#8]⟩ State.reset)
      = some ⟨0xD1#8, [0x13#8]⟩ := by decide +kernel
theorem test_mapWrite_cell :
    readCell (after (.mapWrite .demand) (waiting .demand (Request.mapWrite ⟨7, 7, 1, [1000]⟩).frame State.reset)).map 7 7
      = 1000 := by decide +kernel
theorem test_mapFill_notPermitted :
    lastSent (.mapFill .stability) .stability (waiting .stability (Request.mapFill 1).frame State.reset)
      = some ⟨0xD4#8, [0x10#8]⟩ := by decide +kernel
theorem test_mapRead_row :
    lastSent (.mapRead .demand) .demand (waiting .demand ⟨0x53#8, [8#8]⟩ State.reset) = some ⟨0xD3#8, [0x13#8]⟩ := by
  decide +kernel
/-- Just after reset: UNCONFIGURED, both axles OFFLINE, links DOWN, live share 500, the default envelope. -/
theorem test_status_atReset :
    lastSent (.status .demand) .demand (waiting .demand ⟨0x61#8, []⟩ State.reset)
      = some ⟨0xE1#8, [0#8, 0#8, 0#8, 0#8, 0#8, 0#8, 0x01#8, 0xF4#8, 0x01#8, 0xF4#8, 0#8, 0#8, 0x12#8, 0xC0#8, 0xF3#8,
          0x80#8, 0x19#8, 0x00#8, 0xF0#8, 0x60#8]⟩ := by decide +kernel
theorem test_listClaims_entry :
    lastSent (.listClaims .demand) .demand
        (waiting .demand ⟨0x62#8, [0#8]⟩ { part .ready with table := [entry .total .floor (-2)] })
      = some ⟨0xE2#8, [0#8, 1#8, 0#8, 0#8, 0x18#8, 0xFF#8, 0xFE#8, 0#8, 0#8]⟩ := by decide +kernel
theorem test_listHolds_lapseRecord :
    lastSent (.listHolds .demand) .demand (waiting .demand ⟨0x63#8, []⟩ (part .lapsed))
      = some ⟨0xE3#8, [0#8, 1#8, 0x0E#8, 0x01#8, 0xF4#8, 0#8]⟩ := by decide +kernel
theorem test_restart_ready :
    lastSent (.restart .demand) .demand (waiting .demand ⟨0x7E#8, []⟩ driving) = some ⟨0xFE#8, [0#8, 1#8]⟩
      ∧ (after (.restart .demand) (waiting .demand ⟨0x7E#8, []⟩ driving)).rear.tx = .breaking := by decide +kernel
theorem test_unknownRequest :
    lastSent (.unknownRequest .demand) .demand (waiting .demand ⟨0x20#8, [1#8]⟩ State.reset)
      = some ⟨0xFF#8, [0x1C#8]⟩ := by decide +kernel

/-! ## Single commands: events -/

theorem test_lapseTimerExpiry :
    (after .lapseTimerExpiry (part .running)).alloc.state = .lapsed
      ∧ (after .lapseTimerExpiry (part .running)).demandPort.alert.flags = 0x2000#16 := by decide +kernel
theorem test_lapseStep_settles :
    (after .lapseStep (part .lapsed)).alloc.settled = true
      ∧ (after .lapseStep (part .lapsed)).alloc.lapseStepTimer = .stopped := by decide +kernel
theorem test_commandComplete_window :
    (after (.commandComplete .front) (axles (fun u => { onlineAxle u with tx := .sending ⟨3#8, .drive, 1, 2, 0⟩ false })
        (part .running))).front.window = .running 600 := by decide +kernel
theorem test_windowExpiry_suspect :
    (after (.feedbackWindowExpiry .rear)
        (axles (fun u => { onlineAxle u with outstanding := some 3#8, window := .running 600 }) (part .running))).rear.state
      = .suspect := by decide +kernel
theorem test_feedback_matched :
    (after (.feedback .front) (assembled (.axle .front) ⟨0x91#8, [3#8, 1#8, 0#8, 5#8, 0#8, 6#8, 0#8]⟩
        (axles (fun u => { onlineAxle u with outstanding := some 3#8, window := .running 600 }) (part .running)))).front
      = { onlineAxle AxleUnit.powerOn with lastDelivered := 5, lastSpeed := 6 } := by decide +kernel
theorem test_axleForeignFrame :
    (after (.axleForeignFrame .front) (assembled (.axle .front) ⟨0x11#8, []⟩ State.reset)).stabilityPort.alert.flags
      = 0x0400#16 := by decide +kernel
theorem test_frameReceived :
    (after (.frameReceived .demand) (assembled (.master .demand) demandFrame State.reset)).demandPort.rxQueue
      = [demandFrame] := by decide +kernel
theorem test_receiveFault_framing :
    (after (.receiveFault (.master .demand) (.character (lineCharacter true 0x21#8 ^^^ 0xC00#12)))
        (State.reset.setLink (.master .demand) .up)).demandPort.alert.lastFault = some .framing := by decide +kernel
theorem test_frameGapTimeout :
    (after (.frameGapTimeout (.master .demand)) (assembled (.master .demand) demandFrame State.reset)).demandPort.receiver
      = .idle := by decide +kernel
theorem test_masterLinkBreak_orphans :
    (after (.masterLinkBreak .demand)
        ({ part .ready with table := [entry .front .ceiling 1] }.setLink (.master .demand) .up)).table
      = [{ entry .front .ceiling 1 with lifetime := some 50, orphaned := true }] := by decide +kernel
theorem test_axleLinkBreak_offline :
    (after (.axleLinkBreak .front) driving).front.state = .offline
      ∧ (after (.axleLinkBreak .front) driving).demandPort.alert.flags = 0x0500#16 := by decide +kernel
theorem test_linkUp : ((after (.linkUp (.axle .rear)) State.reset).axle .rear).link = .up := by decide +kernel
theorem test_breakSent_sendsReply :
    (after (.breakSent (.master .demand))
        (State.reset.onMaster .demand fun m => { m with replyQueue := [⟨0xE1#8, []⟩] })).demandPort.tx
      = .sending ⟨0xE1#8, []⟩ false := by decide +kernel
theorem test_masterFrameSent_idle :
    (after (.masterFrameSent .demand)
        (State.reset.onMaster .demand fun m => { m with tx := .sending ⟨0xE1#8, []⟩ false })).demandPort.tx = .idle := by
  decide +kernel
theorem test_resetRelease_rate :
    (after (.resetRelease true false) State.powerOn).bitRate = .kbit1000 := by decide +kernel
theorem test_resetAssert_holds : (after .resetAssert driving) = State.powerOn := by decide +kernel
theorem test_characterReceived_kind :
    (after (.characterReceived (.master .demand) true 0x21#8) (State.reset.setLink (.master .demand) .up)).demandPort.receiver
      = .awaitLength 0x21#8 := by decide +kernel

/-! ## Events that fall inside an allocation -/

/-- A MOTION of share slew 40, torque slews 100 and lapse slew 600. -/
def motionFrame : Frame := (Request.motion ⟨40, 100, 100, 600⟩).frame

/-- The part LAPSED with both axles ONLINE, a governing share of 600, a total of 5,000, and `ms` inside the next
allocation. -/
def lapsing (ms : List AllocMoment) : State :=
  { axles onlineAxle (part .lapsed) with
    holds := [⟨.allocator, .lapse, 600, true, 0#8⟩]
    alloc := { (part .lapsed).alloc with lastClipped := 5000 }
    inside := [ms] }

/-- What a lapse step with a waiting MOTION shows: the live share, the front command and the share slew it leaves. -/
def lapseOutcome (ms : List AllocMoment) : Nat × Int × Nat :=
  let t := after .lapseStep (waiting .demand motionFrame (lapsing ms))
  (t.liveShare, (t.alloc.lastResult.elim 0 fun r => r.front.command), t.config.motion.shareSlew)

/-- MOTION after the step: both slews are the old ones. -/
theorem test_motion_notInside : lapseOutcome [] = (525, 400, 25) := by decide +kernel
/-- R154: between share control's act and the claim-table act, the new torque slew and the old share slew. -/
theorem test_motion_beforeClaimTable :
    lapseOutcome [.part (.read .front), .part (.read .rear), .part .share, .event (.request .demand)] = (525, 100, 40) := by
  decide +kernel
/-- The other order of the acts: the old torque slew and the new share slew. -/
theorem test_motion_beforeShare :
    lapseOutcome [.part .claimTable, .event (.request .demand)] = (540, 400, 40) := by decide +kernel

/-- A DEMAND taken with `ms` inside its allocation, by a front axle ONLINE with command 3 outstanding at its last permitted
miss and a derate ceiling of 700 in the table. -/
def missing (ms : List AllocMoment) : State :=
  after (.demand .demand)
    (waiting .demand demandFrame
      { driving with
        front := { driving.front with state := .suspect, missCount := 2, outstanding := some 3#8, window := .running 600 }
        table := [derateStored .front .ceiling 700 false]
        inside := [ms] })

/-- The demand port after a DEMAND with mirror on, an older frame in transmission and `ms` inside. -/
def mirrored (ms : List AllocMoment) : MasterPort :=
  (after (.demand .demand)
    (waiting .demand demandFrame
      { (driving.onMaster .demand fun m =>
          { m with link := .up, tx := .sending ⟨0xE1#8, []⟩ false, alert := { m.alert with mirrorEnable := true } }) with
        inside := [ms] })).demandPort

/-- An end of the frame in transmission, named behind the mirror's hand-over, still comes before reply and record, which
arrive together: the reply is sent and the record waits (R167). -/
theorem test_frameSent_beforeReply :
    ((mirrored [.part .claimTable, .part (.read .front), .part (.read .rear), .part .share, .part (.mirror .demand),
        .event (.masterFrameSent .demand)]).outgoing.map fun f => (f.kind, f.payload.length)) = [(0xA1#8, 23)]
      ∧ (mirrored [.part .claimTable, .part (.read .front), .part (.read .rear), .part .share, .part (.mirror .demand),
        .event (.masterFrameSent .demand)]).mirrorSlot.isSome = true := by decide +kernel

/-- Removed after the claim-table act and before the read: STANDBY 0 with the band that held the entry (R95). -/
theorem test_axleLost_beforeRead :
    (missing [.part .claimTable, .event (.feedbackWindowExpiry .front)]).front.tx
        = .sending ⟨1#8, .standby, 0, 700, -3200⟩ false
      ∧ (missing [.part .claimTable, .event (.feedbackWindowExpiry .front)]).table = [] := by decide +kernel
/-- Removed before the claim-table act: STANDBY 0 with the envelope's band (R95). -/
theorem test_axleLost_beforeTable :
    (missing [.event (.feedbackWindowExpiry .front)]).front.tx = .sending ⟨1#8, .standby, 0, 4800, -3200⟩ false := by
  decide +kernel
/-- Lost between the read and the hand-over: the DRIVE record is taken as STANDBY 0, and the result reports it (R92). -/
theorem test_axleLost_beforeHandOver :
    (missing [.part .claimTable, .part (.read .front), .event (.feedbackWindowExpiry .front)]).front.tx
        = .sending ⟨1#8, .standby, 0, 700, -3200⟩ false
      ∧ ((missing [.part .claimTable, .part (.read .front),
          .event (.feedbackWindowExpiry .front)]).alloc.lastResult.map fun r => (r.front.command, r.front.state))
        = some (400, .suspect) := by decide +kernel

/-! ## The statements' hypotheses are met

One theorem for each statement that has hypotheses, by the statement's name; where it has several clauses, a case of each
at a boundary of its range. -/

theorem test_witness_StepRunsTheFrontCommand :
    State.reset.pending = [] ∧ step { State.reset with pending := [.linkUp (.master .demand)] }
      = exec (.linkUp (.master .demand)) State.reset := ⟨rfl, rfl⟩

theorem test_witness_ResetHoldsAndReleasesThePart :
    State.powerOn.resetAsserted = true ∧ State.reset.resetAsserted = false ∧ Instr.lapseStep ≠ .resetAssert
      ∧ ∀ b1 b0, Instr.lapseStep ≠ .resetRelease b1 b0 := by decide

/-- The part READY with four replies waiting at the demand port. -/
def fourReplies : State :=
  (part .ready).onMaster .demand fun m => { m with replyQueue := List.replicate 4 ⟨0xE1#8, []⟩ }

theorem test_witness_NoRequestIsTaken :
    requestPort (.status .demand) = some .demand ∧ (State.reset.master .demand).rxQueue = []
      ∧ 4 ≤ (fourReplies.master .demand).replyQueue.length
      ∧ Instr.status .demand ≠ decodeRequest .demand demandFrame := by decide
theorem test_witness_NoRequestIsTaken_ready : Ready .demand demandFrame (waiting .demand demandFrame State.reset) :=
  ready_waiting _ _ rfl (by decide)
theorem test_witness_EveryTakenRequestYieldsOneReply :
    Ready .stability ⟨0xA0#8, []⟩ (waiting .stability ⟨0xA0#8, []⟩ (part .running))
      ∧ Ready .demand demandFrame (waiting .demand demandFrame (part .running))
      ∧ decodeRequest .demand demandFrame = .demand .demand
      ∧ (waiting .demand demandFrame (part .running)).inside = [] :=
  ⟨ready_part _ _ _, ready_part _ _ _, by decide, rfl⟩

theorem test_witness_TakingAndAnsweringMoveOneFrame :
    (driving.master .demand).replyQueue = [] ∧ (State.reset.master .demand).tx ≠ .idle
      ∧ ((driving.onMaster .demand fun m => { m with tx := .idle }).master .demand).tx = .idle
      ∧ ((driving.onMaster .demand fun m => { m with tx := .idle }).master .demand).replyQueue = [] := by decide

theorem test_witness_UnknownAndUnpermittedRequests :
    (Ready .demand ⟨0x7F#8, []⟩ (waiting .demand ⟨0x7F#8, []⟩ (part .ready))
      ∧ (Frame.mk 0x7F#8 []).kind ∉ [0x21#8, 0x31#8, 0x32#8, 0x33#8, 0x41#8, 0x42#8, 0x51#8, 0x52#8, 0x53#8, 0x54#8,
        0x61#8, 0x62#8, 0x63#8, 0x7E#8])
    ∧ Ready .stability ⟨0x7E#8, []⟩ (waiting .stability ⟨0x7E#8, []⟩ (part .ready))
      ∧ (Instr.restart .stability, 0x7E#8)
        ∈ [(Instr.demand .stability, 0x21#8), (.mapWrite .stability, 0x52#8), (.mapFill .stability, 0x54#8),
          (.restart .stability, 0x7E#8)] :=
  ⟨⟨ready_part _ _ _, by decide⟩, ready_part _ _ _, by decide⟩

theorem test_witness_FlagsStay :
    (∃ t, exec (.linkUp (.axle .rear)) (raise .demand .demandLapse State.reset) = .next t)
      ∧ ((raise .demand .demandLapse State.reset).master .demand).alert.isSet .demandLapse = true
      ∧ ∀ ms ∈ (raise .demand .demandLapse State.reset).inside,
          .event (.request .demand) ∉ ms ∧ .event (.masterLinkBreak .demand) ∉ ms :=
  ⟨⟨_, rfl⟩, by decide, by decide⟩

/-! ### The claim table -/

theorem test_witness_ClaimInRange : ClaimInRange (ceilingClaim 16000) .front .ceiling
    ∧ ClaimInRange (Request.claim ⟨2#8, 1#8, -32000, 250, 0#8, 0#8⟩).frame .total .floor
    ∧ ClaimInRange (Request.claim ⟨1#8, 2#8, 1, 0, 0#8, 0#8⟩).frame .rear .slew := by
  unfold ClaimInRange; decide
theorem test_witness_EnvelopeStores :
    EnvelopeStores ConfigStore.powerOn .front .ceiling 4800 4800 false
      ∧ EnvelopeStores ConfigStore.powerOn .front .ceiling 4801 4800 true
      ∧ EnvelopeStores ConfigStore.powerOn .total .floor (-32000) (-7200) true
      ∧ EnvelopeStores ConfigStore.powerOn .rear .slew 16000 16000 false := by
  unfold EnvelopeStores; decide
theorem test_witness_ClaimStoresANewEntry : ∃ (f : Frame) (s : State),
    Ready .demand f s ∧ f.kind = 0x31#8 ∧ s.alloc.state ≠ .unconfigured ∧ ClaimInRange f .front .ceiling
      ∧ EnvelopeStores s.config .front .ceiling (f.signedAt 2) 4800 true
      ∧ entriesUnder s.table .demand .front .ceiling = [] ∧ masterCount s.table < 12 :=
  ⟨ceilingClaim 4801, waiting .demand (ceilingClaim 4801) (part .ready), ready_part _ _ _, by
    unfold ClaimInRange EnvelopeStores; decide⟩

/-- The part READY with one CEILING entry of the demand link on FRONT, under a replacement policy of that link. -/
def oneClaim (q : Replacement) : State :=
  { part .ready with
    table := [entry .front .ceiling 100]
    config := { ConfigStore.powerOn with policy := { ConfigStore.powerOn.policy with demandReplacement := q } } }

theorem test_witness_ClaimReplaces (q : Replacement) : ∃ (f : Frame) (s : State),
    Ready .demand f s ∧ f.kind = 0x31#8 ∧ s.alloc.state ≠ .unconfigured ∧ ClaimInRange f .front .ceiling
      ∧ EnvelopeStores s.config .front .ceiling (f.signedAt 2) 101 false
      ∧ entriesUnder s.table .demand .front .ceiling = [entry .front .ceiling 100]
      ∧ q = s.config.policy.demandReplacement ∧ ¬ ((101 : Int) ≤ (entry .front .ceiling 100).value) := by
  refine ⟨ceilingClaim 101, waiting .demand (ceilingClaim 101) (oneClaim q),
    ready_waiting _ _ rfl (by cases q <;> decide), ?_⟩
  unfold ClaimInRange EnvelopeStores
  cases q <;> decide
theorem test_witness_ClaimReplaces_tight : ∃ (f : Frame) (s : State),
    Ready .demand f s ∧ f.kind = 0x31#8 ∧ s.alloc.state ≠ .unconfigured ∧ ClaimInRange f .front .ceiling
      ∧ EnvelopeStores s.config .front .ceiling (f.signedAt 2) 100 false
      ∧ entriesUnder s.table .demand .front .ceiling = [entry .front .ceiling 100]
      ∧ s.config.policy.demandReplacement = .tighten ∧ (100 : Int) ≤ (entry .front .ceiling 100).value :=
  ⟨ceilingClaim 100, waiting .demand (ceilingClaim 100) (oneClaim .tighten), ready_waiting _ _ rfl (by decide), by
    unfold ClaimInRange EnvelopeStores; decide⟩

/-- A table of twelve master entries. -/
def twelve : List ClaimEntry := List.replicate 12 (entry .rear .floor 0)

theorem test_witness_ClaimRefusals_notConfigured : ∃ (f : Frame) (s : State),
    Ready .stability f s ∧ f.kind = 0x31#8 ∧ s.alloc.state = .unconfigured :=
  ⟨ceilingClaim 0, waiting .stability (ceilingClaim 0) State.reset, ready_waiting _ _ rfl (by decide), by decide⟩
theorem test_witness_ClaimRefusals_badField : ∃ (f : Frame) (s : State),
    Ready .stability f s ∧ f.kind = 0x31#8 ∧ s.alloc.state ≠ .unconfigured ∧ ∀ axle kind, ¬ ClaimInRange f axle kind := by
  refine ⟨ceilingClaim 16001, waiting .stability (ceilingClaim 16001) (part .ready), ready_part _ _ _, by decide,
    by decide, fun axle kind => ?_⟩
  unfold ClaimInRange
  cases axle <;> cases kind <;> decide
theorem test_witness_ClaimRefusals_envelope : ∃ (f : Frame) (s : State),
    Ready .stability f s ∧ f.kind = 0x31#8 ∧ s.alloc.state ≠ .unconfigured ∧ ClaimInRange f .front .ceiling
      ∧ EnvelopeRefuses s.config .front .ceiling (f.signedAt 2) :=
  ⟨ceilingClaim 4801, waiting .stability (ceilingClaim 4801)
      { part .ready with
        config := { ConfigStore.powerOn with policy := { ConfigStore.powerOn.policy with upperAction := .refuse } } },
    ready_waiting _ _ rfl (by decide), by unfold ClaimInRange EnvelopeRefuses; decide⟩
theorem test_witness_ClaimRefusals_tableFull : ∃ (f : Frame) (s : State),
    Ready .stability f s ∧ f.kind = 0x31#8 ∧ s.alloc.state ≠ .unconfigured ∧ ClaimInRange f .front .ceiling
      ∧ EnvelopeStores s.config .front .ceiling (f.signedAt 2) 4800 false
      ∧ entriesUnder s.table .stability .front .ceiling = [] ∧ 12 ≤ masterCount s.table :=
  ⟨ceilingClaim 4800, waiting .stability (ceilingClaim 4800) { part .ready with table := twelve },
    ready_waiting _ _ rfl (by decide), by unfold ClaimInRange EnvelopeStores; decide⟩

theorem test_witness_Release (f : Frame) : Ready .demand f (waiting .demand f (oneClaim .replace))
    ∧ readKey ((Frame.mk 0x32#8 [2#8, 2#8]).byteAt 0) ((Frame.mk 0x32#8 [2#8, 2#8]).byteAt 1) = none
    ∧ readKey ((Frame.mk 0x32#8 [2#8, 1#8]).byteAt 0) ((Frame.mk 0x32#8 [2#8, 1#8]).byteAt 1) = some (.total, .floor)
    ∧ entriesUnder (oneClaim .replace).table .demand .total .floor = []
    ∧ readKey ((Frame.mk 0x32#8 [0#8, 0#8]).byteAt 0) ((Frame.mk 0x32#8 [0#8, 0#8]).byteAt 1) = some (.front, .ceiling)
    ∧ entriesUnder (oneClaim .replace).table .demand .front .ceiling ≠ [] :=
  ⟨ready_waiting _ _ rfl (by decide), by decide⟩

theorem test_witness_ListClaims : ∃ (f : Frame) (s : State),
    Ready .stability f s ∧ f.kind = 0x62#8 ∧ s.table.length ≤ 16 ∧ s.table.length = 16 :=
  ⟨⟨0x62#8, [15#8]⟩, waiting .stability ⟨0x62#8, [15#8]⟩
    { part .ready with table := List.replicate 16 (entry .front .ceiling 0) }, ready_waiting _ _ rfl (by decide), by decide⟩

theorem test_witness_ClaimTableSound :
    { oneClaim .replace with pending := [.resetAssert] }.tableSound = true
      ∧ ∃ t, step { oneClaim .replace with pending := [.resetAssert] } = .next t := ⟨by decide, _, rfl⟩

theorem test_witness_EffectiveLimits :
    entry .front .ceiling 7 ∈ [entry .front .ceiling 7, entry .total .floor 8, entry .front .slew 9]
      ∧ entry .total .floor 8 ∈ [entry .front .ceiling 7, entry .total .floor 8, entry .front .slew 9]
      ∧ (entry .front .slew 9).axle = AxleId.front.claimAxle := by decide
theorem test_witness_InvertedBand : (3 : Int) ≤ 3 ∧ (-3 : Int) < 5 ∧ (-3 : Int) ≤ 0 ∧ (0 : Int) ≤ 5 := by decide
theorem test_witness_Governs : [entry .front .ceiling 7, entry .front .ceiling 7][1]? = some (entry .front .ceiling 7) := by
  decide

/-! ### Shares, the map and the hold stack -/

theorem test_witness_LiveShare :
    (true = true ↔ driving.front.state = .online ∨ driving.front.state = .suspect)
      ∧ (false = true ↔ State.reset.front.state = .online ∨ State.reset.front.state = .suspect)
      ∧ driving.liveShare + driving.config.motion.shareSlew < 526
      ∧ 474 + driving.config.motion.shareSlew < driving.liveShare
      ∧ 525 ≤ driving.liveShare + driving.config.motion.shareSlew
      ∧ driving.liveShare ≤ 475 + driving.config.motion.shareSlew := by decide
theorem test_witness_Bands :
    bandsValid 99 [1, 99] = true ∧ bandsValid 250 [1, 250] = true ∧ (∀ x ∈ [45], x < 55) ∧ (∀ x ∈ [56], 55 < x) := by
  decide
theorem test_witness_MapWrite_accepted : ∃ (f : Frame) (s : State),
    Ready .demand f s ∧ f.kind = 0x52#8 ∧ f.natAt 0 ≤ 7 ∧ f.natAt 1 ≤ 7 ∧ 1 ≤ f.natAt 2 ∧ f.natAt 2 ≤ 8
      ∧ f.natAt 1 + f.natAt 2 ≤ 8 ∧ f.payload.length = 3 + 2 * f.natAt 2
      ∧ ∀ i, i < f.natAt 2 → f.unsignedAt (3 + 2 * i) ≤ 1000 :=
  ⟨⟨0x52#8, [7#8, 7#8, 1#8, 0x03#8, 0xE8#8]⟩, waiting .demand ⟨0x52#8, [7#8, 7#8, 1#8, 0x03#8, 0xE8#8]⟩ (part .running),
    ready_part _ _ _, by decide⟩
theorem test_witness_MapWrite_refused : ∃ (f : Frame) (s : State),
    Ready .demand f s ∧ f.kind = 0x52#8 ∧ ¬ f.natAt 1 + f.natAt 2 ≤ 8 :=
  ⟨⟨0x52#8, [7#8, 7#8, 2#8, 0#8, 0#8, 0#8, 0#8]⟩, waiting .demand ⟨0x52#8, [7#8, 7#8, 2#8, 0#8, 0#8, 0#8, 0#8]⟩
    (part .running), ready_part _ _ _, by decide⟩
theorem test_witness_MapFill (f : Frame) : Ready .demand f (waiting .demand f (part .unconfigured))
    ∧ (Frame.mk 0x54#8 [0x03#8, 0xE8#8]).unsignedAt 0 = 1000 ∧ (Frame.mk 0x54#8 [0x01#8, 0xF4#8]).unsignedAt 0 = 500
    ∧ 1000 < (Frame.mk 0x54#8 [0x03#8, 0xE9#8]).unsignedAt 0 := ⟨ready_part _ _ _, by decide⟩
theorem test_witness_MapRead (p : MasterId) (f : Frame) : Ready p f (waiting p f (part .unconfigured))
    ∧ (Frame.mk 0x53#8 [7#8]).natAt 0 ≤ 7 ∧ 7 < (Frame.mk 0x53#8 [8#8]).natAt 0 := ⟨ready_part _ _ _, by decide⟩

/-- A MASTER record of the demand port. -/
def masterHold : HoldRecord := ⟨.demandPort, .master, 1000, false, 0#8⟩

theorem test_witness_Hold_notConfigured : ∃ (f : Frame) (s : State),
    Ready .demand f s ∧ f.kind = 0x41#8 ∧ s.alloc.state = .unconfigured :=
  ⟨⟨0x41#8, [0#8, 0#8, 0#8, 0#8]⟩, waiting .demand ⟨0x41#8, [0#8, 0#8, 0#8, 0#8]⟩ (part .unconfigured), ready_part _ _ _,
    by decide⟩
theorem test_witness_Hold_badField : ∃ (f : Frame) (s : State),
    Ready .demand f s ∧ f.kind = 0x41#8 ∧ s.alloc.state ≠ .unconfigured
      ∧ f.byteAt 0 ≠ 0#8 ∧ ¬ (f.byteAt 0 = 1#8 ∧ f.unsignedAt 1 ≤ 1000) :=
  ⟨⟨0x41#8, [1#8, 0x03#8, 0xE9#8, 0#8]⟩, waiting .demand ⟨0x41#8, [1#8, 0x03#8, 0xE9#8, 0#8]⟩ (part .ready),
    ready_part _ _ _, by decide⟩
theorem test_witness_Hold_given (n : Fin 5) : ∃ (f : Frame) (s : State),
    Ready .demand f s ∧ f.kind = 0x41#8 ∧ s.alloc.state ≠ .unconfigured
      ∧ (f.byteAt 0 = 1#8 ∧ f.unsignedAt 1 ≤ 1000 ∧ 1000 = f.unsignedAt 1)
      ∧ (s.holds.countP fun h => h.origin = .master) = n :=
  ⟨⟨0x41#8, [1#8, 0x03#8, 0xE8#8, 0#8]⟩, waiting .demand ⟨0x41#8, [1#8, 0x03#8, 0xE8#8, 0#8]⟩
    { part .ready with holds := List.replicate n masterHold }, ready_waiting _ _ rfl (by revert n; decide),
    by revert n; decide⟩
theorem test_witness_Hold_captured : ∃ (f : Frame) (s : State),
    Ready .demand f s ∧ f.kind = 0x41#8 ∧ s.alloc.state ≠ .unconfigured ∧ f.byteAt 0 = 0#8 ∧ 500 = s.liveShare
      ∧ (s.holds.countP fun h => h.origin = .master) < 4 :=
  ⟨⟨0x41#8, [0#8, 0xFF#8, 0xFF#8, 0#8]⟩, waiting .demand ⟨0x41#8, [0#8, 0xFF#8, 0xFF#8, 0#8]⟩ (part .ready),
    ready_part _ _ _, by decide⟩
theorem test_witness_Resume (f : Frame) (p : MasterId) :
    (Ready p f (waiting p f (part .ready)) ∧ (waiting p f (part .ready)).holds = [])
      ∧ (Ready p f (waiting p f (part .lapsed))
        ∧ (waiting p f (part .lapsed)).holds = [] ++ [⟨.allocator, .lapse, 500, true, 0#8⟩])
      ∧ masterHold.origin = .master ∧ masterHold.holder = MasterId.demand.holder
      ∧ masterHold.holder ≠ MasterId.stability.holder :=
  ⟨⟨ready_part _ _ _, by cases p <;> rfl⟩, ⟨ready_part _ _ _, by cases p <;> rfl⟩, by decide⟩
theorem test_witness_ListHolds : Ready .stability ⟨0x63#8, []⟩ (waiting .stability ⟨0x63#8, []⟩ (part .lapsed)) :=
  ready_part _ _ _

theorem test_witness_HoldsSharesAndTimersSound :
    { part .lapsed with pending := [.lapseStep] }.stackSound = true
      ∧ { part .lapsed with pending := [.lapseStep] }.sharesSound = true ∧ (part .lapsed).alloc.sound = true
      ∧ ∃ t, step { part .lapsed with pending := [.lapseStep] } = .next t := by
  refine ⟨by decide +kernel, by decide +kernel, by decide, _, rfl⟩

/-! ### Allocations -/

theorem test_witness_Placement :
    let q : Policy := { ConfigStore.powerOn.policy with ceilingExcess := .spill, floorExcess := .shed }
    (⟨10, -10⟩ : Band).used.ceiling < 11 ∧ (⟨10, -10⟩ : Band).used.floor ≤ 9 ∧ (9 : Int) + (11 - 10) ≤ 10
      ∧ -11 < (⟨10, -10⟩ : Band).used.floor ∧ q.ceilingExcess = .spill ∧ q.floorExcess = .shed := by decide
/-- Both targets out of band: 6 of the front's excess and 17 of the rear's travel, and pass 5 cuts the front at 10. -/
theorem test_witness_FivePasses :
    let q : Policy := { ConfigStore.powerOn.policy with ceilingExcess := .spill, floorExcess := .spill }
    place .both q ⟨10, -10⟩ ⟨5, -5⟩ 16 16 = ⟨10, 5, true, false, true, false⟩ := by decide
theorem test_witness_Commands :
    (⟨10, -10⟩ : Band).used.ceiling < 11 ∧ -11 < (⟨10, -10⟩ : Band).used.floor ∧ (0 : Int) + 4 < 5 ∧ (-5 : Int) < 0 - 4
      ∧ (4 : Int) ≤ 0 + 4 ∧ (0 : Int) - 4 ≤ 4 := by decide
theorem test_witness_AnAllocationFormsItsRecords :
    (true = true ↔ driving.front.state = .online ∨ driving.front.state = .suspect)
      ∧ (false = true ↔ State.reset.rear.state = .online ∨ State.reset.rear.state = .suspect) := by decide
theorem test_witness_CommandRecords :
    (driving.axle .front).link = .up ∧ (driving.axle .front).tx = .idle ∧ (State.reset.axle .rear).link ≠ .up
      ∧ ((driving.onAxle .rear fun u => { u with tx := .breaking }).axle .rear).tx ≠ .idle
      ∧ AxleUnit.powerOn.state = .offline := by decide
theorem test_witness_Mirror :
    State.reset.stabilityPort.tx ≠ .idle ∧ State.powerOn.stabilityPort.tx = .idle
      ∧ State.powerOn.stabilityPort.replyQueue = []
      ∧ ({ State.powerOn.stabilityPort with replyQueue := [⟨0xE1#8, []⟩] } : MasterPort).replyQueue = ⟨0xE1#8, []⟩ :: []
      := by decide
/-- The conditions of a part: read and due, each at its first time, and each once taken. -/
theorem test_witness_Parts :
    (startAllocating none (lapseInput driving) driving).1.bands = none
      ∧ (startAllocating none (lapseInput driving) driving).1.done = []
      ∧ (allocating none (lapseInput driving) driving).1.bands ≠ none
      ∧ (allocating none (lapseInput driving) driving).1.live ≠ none
      ∧ .record ∈ (allocating none (lapseInput driving) driving).1.done
      ∧ (startAllocating (some .demand) (lapseInput driving) driving).1.replying = some .demand
      ∧ (startAllocating none (lapseInput driving) driving).1.replying ≠ some .demand := by decide +kernel
theorem test_witness_EventsInside :
    eventRow (.feedbackWindowExpiry .front) = some (.feedbackWindowExpiry .front)
      ∧ Ready .demand motionFrame (waiting .demand motionFrame (part .lapsed)) ∧ motionFrame.kind ≠ 0x21#8
      ∧ motionFrame.kind ≠ 0x7E#8 ∧ (none : Option MasterId) ≠ some .demand
      ∧ Ready .demand demandFrame (waiting .demand demandFrame (part .lapsed)) ∧ demandFrame.kind = 0x21#8
      ∧ (lapsing [.part .claimTable, .event (.linkUp (.axle .rear))]).inside
        = [.part .claimTable, .event (.linkUp (.axle .rear))] :: []
      ∧ AxleUnit.powerOn.state = .offline :=
  ⟨rfl, ready_part _ _ _, by decide, by decide, by decide, ready_part _ _ _, by decide, rfl, rfl⟩
theorem test_witness_MotionBetweenTheActs (ms : List AllocMoment) :
    Ready .demand motionFrame (waiting .demand motionFrame (lapsing ms))
      ∧ (waiting .demand motionFrame (lapsing ms)).inside = ms :: []
      ∧ (lapsing ms).alloc.state = .lapsed ∧ (lapsing ms).alloc.settled = false
      ∧ (lapsing ms).alloc.lapseStepTimer = .running 2 ∧ (lapsing ms).front.state = .online
      ∧ (lapsing ms).rear.state = .online ∧ motionFrame.kind = 0x51#8 ∧ motionFrame.byteAt 0 = 3#8
      ∧ motionFrame.payload.length = 9 ∧ motionFrame.unsignedAt 1 = 40 ∧ motionFrame.unsignedAt 3 = 100
      ∧ motionFrame.unsignedAt 5 = 100 ∧ motionFrame.unsignedAt 7 = 600 :=
  ⟨ready_waiting _ _ rfl (show ([] : List Frame).length < 4 by decide), rfl, rfl, rfl, rfl, rfl, rfl, by decide⟩

/-! ### Demand supervision -/

theorem test_witness_Demand (st : AllocState) :
    Ready .demand demandFrame (waiting .demand demandFrame (part st)) ∧ demandFrame.kind = 0x21#8
      ∧ (waiting .demand demandFrame (part st)).alloc.state = st
      ∧ -32000 ≤ demandFrame.signedAt 1 ∧ demandFrame.signedAt 1 ≤ 32000 ∧ -2000 ≤ demandFrame.signedAt 3
      ∧ demandFrame.signedAt 3 ≤ 2000 ∧ demandFrame.natAt 5 ≤ 100 :=
  ⟨ready_part _ _ _, by cases st <;> decide⟩
theorem test_witness_Demand_badField (st : AllocState) : ∃ (f : Frame) (s : State),
    Ready .demand f s ∧ f.kind = 0x21#8 ∧ s.alloc.state = st ∧ f.signedAt 1 = 32000 ∧ f.signedAt 3 = -2000
      ∧ ¬ f.natAt 5 ≤ 100 :=
  ⟨(Request.demand ⟨0#8, 32000, -2000, 101, 0#8⟩).frame,
    waiting .demand (Request.demand ⟨0#8, 32000, -2000, 101, 0#8⟩).frame (part st), ready_part _ _ _,
    by cases st <;> decide⟩

/-- The demand link UP with mirror on, and a DEMAND ready. -/
theorem test_witness_Demand_mirror : ∃ s : State, Ready .demand demandFrame s ∧ s.alloc.state = .running
    ∧ s.demandPort.alert.mirrorEnable = true ∧ s.demandPort.link = .up :=
  ⟨waiting .demand demandFrame ((part .running).onMaster .demand fun m =>
      { m with link := .up, alert := { m.alert with mirrorEnable := true } }),
    ⟨rfl, rfl, show ([] : List Frame).length < 4 by decide⟩, rfl, rfl, rfl⟩

/-- Rows whose event cannot happen: the wrong allocator state, the ramp settled, each timer stopped. -/
theorem test_witness_Lapse_doesNotOccur :
    (part .ready).alloc.state ≠ .running ∧ (part .ready).alloc.lapseTimer = .stopped ∧ (part .ready).alloc.state ≠ .lapsed
      ∧ ({ (part .lapsed).alloc with settled := true } : Allocator).settled = true
      ∧ (part .ready).alloc.lapseStepTimer = .stopped := by decide
theorem test_witness_Lapse :
    (part .running).alloc.lapseTimer = .running 12 ∧ (part .running).resetAsserted = false
      ∧ (part .lapsed).alloc.state = .lapsed ∧ (part .lapsed).alloc.settled = false
      ∧ (part .lapsed).alloc.lapseStepTimer = .running 2 := by decide
theorem test_witness_Lapse_settles :
    (true = true ↔ (allocateWith none (lapseInput (part .lapsed)) (part .lapsed)).1.clipped = 0
      ∧ (allocateWith none (lapseInput (part .lapsed)) (part .lapsed)).1.frontCommand.torque = 0
      ∧ (allocateWith none (lapseInput (part .lapsed)) (part .lapsed)).1.rearCommand.torque = 0)
      ∧ (part .lapsed).inside = [] := by decide +kernel
theorem test_witness_Restart : ∃ f : AxleUnit → AxleUnit, (∀ u, f u =
      { u with
        tx := match u.tx with
          | .idle => .breaking
          | .sending r _ => .sending r true
          | .breaking => .breaking
        slot := none
        state := .offline
        missCount := 0
        goodCount := 0
        outstanding := none
        lastCommanded := 0
        lastDelivered := 0
        lastSpeed := 0
        window := .stopped })
    ∧ Ready .demand ⟨0x7E#8, []⟩ (waiting .demand ⟨0x7E#8, []⟩ (part .running)) :=
  ⟨_, fun _ => rfl, ready_part _ _ _⟩

/-! ### Configuration -/

theorem test_witness_Configure_envelope :
    envelopeFrame.kind = 0x51#8 ∧ envelopeFrame.byteAt 0 = 1#8 ∧ envelopeFrame.payload.length = 13
      ∧ envelopeFrame.signedAt 1 = 16000 ∧ envelopeFrame.signedAt 3 = -16000 ∧ envelopeFrame.signedAt 5 = 1
      ∧ envelopeFrame.signedAt 7 = -1 ∧ envelopeFrame.signedAt 9 = 32000 ∧ envelopeFrame.signedAt 11 = -32000
      ∧ (part .ready).table = [] ∧ (part .ready).alloc.state = .ready := by decide
theorem test_witness_Configure_policy :
    ∀ i, i < 7 → (Frame.mk 0x51#8 [2#8, 1#8, 1#8, 1#8, 1#8, 1#8, 1#8]).byteAt i = (if i = 0 then 2#8 else 1#8) := by
  decide
theorem test_witness_Configure_motion :
    (Request.motion ⟨1000, 16000, 1, 1⟩).frame.byteAt 0 = 3#8 ∧ (Request.motion ⟨1000, 16000, 1, 1⟩).frame.payload.length = 9
      ∧ (Request.motion ⟨1000, 16000, 1, 1⟩).frame.unsignedAt 1 = 1000
      ∧ (Request.motion ⟨1000, 16000, 1, 1⟩).frame.unsignedAt 3 = 16000
      ∧ (Request.motion ⟨1000, 16000, 1, 1⟩).frame.unsignedAt 5 = 1
      ∧ (Request.motion ⟨1000, 16000, 1, 1⟩).frame.unsignedAt 7 = 1 := by decide
theorem test_witness_Configure_timing :
    readTiming (Request.timing ⟨250, 1, 200, 8, 1, 250⟩).frame = ⟨250, 1, 200, 8, 1, 250⟩
      ∧ (Request.timing ⟨250, 1, 200, 8, 1, 250⟩).frame.payload.length = 7 := by decide
theorem test_witness_Configure_bands :
    (Request.loadBands [1, 99]).frame.payload.length = 2 + (Request.loadBands [1, 99]).frame.natAt 1
      ∧ ((Request.loadBands [1, 99]).frame.payload.drop 2).map BitVec.toNat = [1, 99] ∧ [1, 99].Pairwise (· < ·)
      ∧ ((Request.speedBands [1, 250]).frame.payload.drop 2).map BitVec.toNat = [1, 250]
      ∧ (Request.speedBands [1, 250]).frame.byteAt 0 = 6#8 := by decide
theorem test_witness_ConfigureAlert :
    ∀ mirror : Bool, (Request.alert 0x3FFF#16 (if mirror then 1#8 else 0#8)).frame.byteAt 0 = 7#8
      ∧ (Request.alert 0x3FFF#16 (if mirror then 1#8 else 0#8)).frame.payload.length = 4
      ∧ ((Request.alert 0x3FFF#16 (if mirror then 1#8 else 0#8)).frame.halfAt 1).getLsbD 14 = false
      ∧ ((Request.alert 0x3FFF#16 (if mirror then 1#8 else 0#8)).frame.halfAt 1).getLsbD 15 = false
      ∧ (Request.alert 0x3FFF#16 (if mirror then 1#8 else 0#8)).frame.byteAt 3 = (if mirror then 1#8 else 0#8) := by
  decide
theorem test_witness_ConfigureRefusals :
    (Frame.mk 0x51#8 [8#8]).byteAt 0 = 8#8 ∧ (Frame.mk 0x51#8 [1#8]).payload.length ≠ 13
      ∧ ¬ ((part .running).alloc.state = .unconfigured ∨ (part .running).alloc.state = .ready)
      ∧ (oneClaim .replace).table ≠ [] ∧ ¬ 1 ≤ (Request.envelope ⟨0, -1, 1, -1, 1, -1⟩).frame.signedAt 1
      ∧ ¬ (Request.motion ⟨1001, 1, 1, 1⟩).frame.unsignedAt 1 ≤ 1000 ∧ ¬ 2 ≤ (Request.timing ⟨1, 1, 10, 1, 1, 1⟩).frame.natAt 1
      ∧ ¬ (((Request.loadBands [50, 50]).frame.payload.drop 2).map BitVec.toNat).Pairwise (· < ·)
      ∧ ((Request.speedBands [251]).frame.payload.drop 2).map BitVec.toNat = [251]
      ∧ (Request.envelope ⟨0, -1, 1, -1, 1, -1⟩).frame.payload.length = 13 := by decide
theorem test_witness_Configure_ready (p : MasterId) (f : Frame) (st : AllocState) : Ready p f (waiting p f (part st)) :=
  ready_part _ _ _
theorem test_witness_Status : Ready .stability ⟨0x61#8, []⟩ (waiting .stability ⟨0x61#8, []⟩ (part .lapsed)) :=
  ready_part _ _ _
theorem test_witness_MasterPortsSound :
    { fourReplies with pending := [.status .demand] }.portsSound = true
      ∧ ∃ t, step { State.reset with pending := [.breakSent (.master .demand)] } = .next t := ⟨by decide, _, rfl⟩

/-! ### Axle supervision -/

/-- Both axles in state `st` with command 3 outstanding. -/
def awaiting (st : AxleState) : State :=
  axles (fun u => { onlineAxle u with state := st, outstanding := some 3#8, window := .running 600 }) (part .running)

/-- A ready FEEDBACK to command 3 with a derate ceiling. -/
def feedbackFrame : Frame := ⟨0x91#8, [3#8, 1#8, 0#8, 5#8, 0#8, 6#8, 0x09#8, 0x10#8, 0x00#8]⟩

theorem test_witness_CommandCompletion :
    ((driving.onAxle .front fun u => { u with tx := .sending ⟨3#8, .drive, 1, 2, 0⟩ false }).axle .front).tx
        = .sending ⟨3#8, .drive, 1, 2, 0⟩ false
      ∧ ((driving.onAxle .front fun u => { u with tx := .sending ⟨3#8, .drive, 1, 2, 0⟩ true }).axle .front).tx
        = .sending ⟨3#8, .drive, 1, 2, 0⟩ true
      ∧ (driving.axle .front).tx = .idle ∧ (State.reset.axle .front).tx = .breaking
      ∧ (driving.axle .front).window = .stopped := by decide
theorem test_witness_WindowExpiry :
    ((awaiting .online).axle .rear).window = .running 600 ∧ ((awaiting .online).axle .rear).outstanding ≠ none
      ∧ (awaiting .online).resetAsserted = false ∧ 1 < (awaiting .online).config.timing.missLimit
      ∧ (awaiting .online).config.timing.missLimit ≤ 2 + 1 ∧ 1 + 1 < (awaiting .online).config.timing.missLimit := by
  decide
theorem test_witness_MatchedFeedback (st : AxleState) :
    Completing (.axle .front) feedbackFrame (assembled (.axle .front) feedbackFrame (awaiting st)) := by
  cases st <;> exact ⟨rfl, rfl, rfl⟩
/-- A FEEDBACK in its layout: echo 3, ready, torque 5, speed 6, ceiling present and clear floor, ceiling 1000h. -/
theorem test_witness_FeedbackLayout :
    feedbackFrame.payload = [3#8, 1#8, 0#8, 5#8, 0#8, 6#8, 0x09#8]
      ++ (if (0x09#8 : Byte).getLsbD 0 then [0x10#8, 0x00#8] else [])
      ++ (if (0x09#8 : Byte).getLsbD 1 then [0#8, 0#8] else []) := by decide
/-- Both derates present: the floor stands behind the ceiling, and the signed bounds of a two-byte field. -/
theorem test_witness_FeedbackLayout_both :
    readFeedback ⟨0x91#8, [7#8, 0#8, 0x7F#8, 0xFF#8, 0x80#8, 0x00#8, 0x03#8, 0x00#8, 0x64#8, 0xFF#8, 0x9C#8]⟩
      = ⟨7#8, false, 32767, -32768, true, true, false, false, 100, -100⟩ := by decide
theorem test_witness_MatchedFeedback_fields :
    feedbackFrame.kind = 0x91#8
      ∧ feedbackFrame.payload.length = 7 + (if (readFeedback feedbackFrame).ceilingPresent then 2 else 0)
        + (if (readFeedback feedbackFrame).floorPresent then 2 else 0)
      ∧ ¬ ((readFeedback feedbackFrame).ceilingPresent = true ∧ (readFeedback feedbackFrame).clearCeiling = true)
      ∧ ¬ ((readFeedback feedbackFrame).floorPresent = true ∧ (readFeedback feedbackFrame).clearFloor = true)
      ∧ ((awaiting .suspect).axle .front).outstanding = some (readFeedback feedbackFrame).sequence
      ∧ (readFeedback feedbackFrame).ready = true
      ∧ (readFeedback ⟨0x91#8, [3#8, 0#8, 0#8, 5#8, 0#8, 6#8, 0#8]⟩).ready = false := by decide
theorem test_witness_UnmatchedFrame :
    ((driving.axle .front).outstanding ≠ some (readFeedback feedbackFrame).sequence)
      ∧ (Frame.mk 0x91#8 [3#8, 1#8, 0#8, 5#8, 0#8, 6#8, 0x01#8]).payload.length
        ≠ 7 + (if (readFeedback ⟨0x91#8, [3#8, 1#8, 0#8, 5#8, 0#8, 6#8, 0x01#8]⟩).ceilingPresent then 2 else 0)
      ∧ (Frame.mk 0x11#8 []).kind ≠ 0x91#8 := by decide
/-- Nothing completed: no whole frame, a link not UP, a frame of the other row's kind. -/
theorem test_witness_UnmatchedFrame_doesNotOccur :
    (driving.axle .rear).receiver.assembled = none ∧ (State.reset.axle .rear).link ≠ .up
      ∧ ((assembled (.axle .rear) ⟨0x11#8, []⟩ driving).axle .rear).receiver.assembled = some ⟨0x11#8, []⟩
      ∧ ((assembled (.axle .rear) feedbackFrame driving).axle .rear).receiver.assembled = some feedbackFrame
      ∧ (State.reset.master .demand).receiver.assembled = none ∧ (State.reset.master .demand).link ≠ .up := by decide
theorem test_witness_UnmatchedFrame_completing (f : Frame) :
    Completing (.axle .rear) f (assembled (.axle .rear) f driving) := by
  refine ⟨rfl, rfl, ?_⟩
  simp [assembled, State.receiverOf, State.setReceiver, State.onAxle, State.setAxle, State.axle, Receiver.assembled]
theorem test_witness_Derate :
    entriesUnder [derateStored .front .ceiling 100 false] .finv .front .ceiling = [derateStored .front .ceiling 100 false]
      ∧ entriesUnder [] .finv .front .ceiling = [] ∧ ClaimKind.ceiling ≠ .slew := by decide
theorem test_witness_AxleLinkBreak : driving.resetAsserted = false ∧ (driving.axle .front).link = .up := by decide
theorem test_witness_AxlesAndCommandsSound :
    { awaiting .online with pending := [.feedbackWindowExpiry .front] }.axlesSound = true
      ∧ { awaiting .online with pending := [.feedbackWindowExpiry .front] }.commandsSound = true
      ∧ ∃ t, step { awaiting .online with pending := [.feedbackWindowExpiry .front] } = .next t :=
  ⟨by decide, by decide, _, rfl⟩

/-! ### Links -/

theorem test_witness_CompletedFrame :
    Completing (.master .demand) demandFrame (assembled (.master .demand) demandFrame State.reset)
      ∧ (State.reset.master .demand).rxQueue.length < 4 ∧ 4 ≤ (List.replicate 4 demandFrame).length :=
  ⟨⟨rfl, rfl, rfl⟩, by decide⟩
theorem test_witness_Characters :
    State.reset.linkOf (.axle .front) ≠ .up ∧ driving.linkOf (.axle .front) = .up
      ∧ driving.receiverOf (.axle .front) = .idle ∧ lengthAllowed (.master .demand) 0x21#8 7 = true
      ∧ lengthAllowed (.master .demand) 0x21#8 8 = false
      ∧ (0x61#8 :: byteOf ([] : List Byte).length :: []).foldl (· + ·) 0x9F#8 = 0#8
      ∧ (0x61#8 :: byteOf ([] : List Byte).length :: []).foldl (· + ·) 0x9E#8 ≠ 0#8 := by decide
theorem test_witness_Characters_receivers (l : Link) (r : Receiver) :
    ((driving.setLink l .up).setReceiver l r).linkOf l = .up
      ∧ ((driving.setLink l .up).setReceiver l r).receiverOf l = r := by
  rcases l with p | a
  · cases p <;> exact ⟨rfl, rfl⟩
  · cases a <;> exact ⟨rfl, rfl⟩
/-- Faults that an assembly state cannot meet. -/
theorem test_witness_Faults_doNotOccur :
    (driving.receiverOf (.axle .front)).assembled = none ∧ (∀ k, driving.receiverOf (.axle .front) ≠ .awaitLength k)
      ∧ driving.receiverOf (.axle .front) = .idle ∧ Receiver.discarding ≠ .idle := by
  exact ⟨rfl, fun k h => (by cases h), rfl, by decide⟩
theorem test_witness_MasterLinkBreak :
    ((State.reset.setLink (.master .demand) .up).master .demand).link = .up
      ∧ (true = true ↔ ∃ e ∈ (oneClaim .replace).table, e.source = MasterId.demand.source)
      ∧ (true = true ↔ ∃ h ∈ [masterHold], h.origin = .master ∧ h.holder = MasterId.demand.holder)
      ∧ (false = true ↔ ∃ e ∈ State.reset.table, e.source = MasterId.demand.source) := by decide
theorem test_witness_Transmitters :
    State.reset.linkOf (.master .demand) ≠ .up ∧ (State.reset.master .demand).tx = .breaking
      ∧ ((State.reset.onMaster .demand fun m => { m with tx := .sending demandFrame true }).master .demand).tx
        = .sending demandFrame true
      ∧ ((State.reset.onMaster .demand fun m => { m with tx := .sending demandFrame false }).master .demand).tx
        = .sending demandFrame false
      ∧ (fourReplies.master .demand).replyQueue ≠ [] ∧ (State.reset.axle .rear).tx = .breaking
      ∧ driving.linkOf (.axle .rear) = .up ∧ (State.powerOn.master .demand).tx = .idle
      ∧ (driving.axle .rear).tx ≠ .breaking := by decide
/-- The demand link UP between frames, `n` frames in its receive queue, and the characters of `f` waiting. -/
def arriving (f : Frame) (n : Nat) : State :=
  { (State.reset.setLink (.master .demand) .up).onMaster .demand fun m =>
      { m with rxQueue := List.replicate n ⟨0x61#8, []⟩, holdoff := decide (4 ≤ n) } with
    pending := f.characters.map fun c => .characterReceived (.master .demand) (c.getLsbD 9) (characterData c) }
theorem test_witness_FrameByCharacters (n : Nat) :
    demandFrame.wellFormed (.master .demand) = true ∧ (arriving demandFrame n).resetAsserted = false
      ∧ ((arriving demandFrame n).master .demand).link = .up
      ∧ ((arriving demandFrame n).master .demand).receiver = .idle
      ∧ (arriving demandFrame n).pending = demandFrame.characters.map
          (fun c => .characterReceived (.master .demand) (c.getLsbD 9) (characterData c))
      ∧ ((arriving demandFrame 3).master .demand).rxQueue.length < 4
      ∧ 4 ≤ ((arriving demandFrame 4).master .demand).rxQueue.length :=
  ⟨by decide, rfl, rfl, rfl, rfl, by decide, by decide⟩
theorem test_witness_FrameByCharacters_check :
    (demandFrame.kind :: byteOf demandFrame.payload.length :: demandFrame.payload).foldl (· + ·) 0x9D#8 = 0#8 := by decide
theorem test_witness_RequestsSurvive : (Request.mapWrite ⟨7, 0, 8, List.replicate 8 1000⟩).wellFormed = true
    ∧ (Request.loadBands (List.replicate 11 255)).wellFormed = true
    ∧ (Request.demand ⟨0#8, 32767, -32768, 255, 0#8⟩).wellFormed = true := by decide

end Sys2Proof.Tests
end

section
/-! PROOFS. The split map: the bands that select a cell (R34, R35), MAP FILL (R37) and MAP READ (R38). -/

namespace Sys2Proof.Machine

/-! ## The band of a value -/

theorem bandIndex_eq_length_filter (bands : List Nat) (v : Nat) :
    bandIndex bands v = (bands.filter fun b => b ≤ v).length :=
  List.countP_eq_length_filter

theorem bandIndex_append (below above : List Nat) (v : Nat) :
    bandIndex (below ++ above) v = bandIndex below v + bandIndex above v :=
  List.countP_append

theorem bandIndex_cons (b : Nat) (bands : List Nat) (v : Nat) :
    bandIndex (b :: bands) v = bandIndex bands v + if b ≤ v then 1 else 0 := by
  simp [bandIndex, List.countP_cons]

@[simp] theorem bandIndex_nil (v : Nat) : bandIndex [] v = 0 := rfl

/-- A value below every breakpoint lies in band 0. -/
theorem bandIndex_eq_zero {bands : List Nat} {v : Nat} (h : ∀ b ∈ bands, v < b) : bandIndex bands v = 0 := by
  simpa [bandIndex, List.countP_eq_zero] using h

/-- A value that no breakpoint exceeds lies in the highest band. -/
theorem bandIndex_eq_length {bands : List Nat} {v : Nat} (h : ∀ b ∈ bands, b ≤ v) :
    bandIndex bands v = bands.length := by
  simpa [bandIndex, List.countP_eq_length] using h

/-- A value equal to a breakpoint belongs to the band above it (R34). -/
theorem bandIndex_at_breakpoint {below above : List Nat} {b : Nat} (hbelow : ∀ x ∈ below, x < b)
    (habove : ∀ x ∈ above, b < x) : bandIndex (below ++ b :: above) b = below.length + 1 := by
  have hlow : bandIndex below b = below.length := bandIndex_eq_length fun x hx => (hbelow x hx).le
  have hhigh : bandIndex above b = 0 := bandIndex_eq_zero habove
  simp [bandIndex_append, bandIndex_cons, hlow, hhigh]

/-- Breakpoints above a bound that the value does not pass select no band (R35). -/
theorem bandIndex_filter_le (bands : List Nat) {v bound : Nat} (h : v ≤ bound) :
    bandIndex (bands.filter fun b => b ≤ bound) v = bandIndex bands v := by
  induction bands with
  | nil => rfl
  | cons b rest ih =>
    by_cases hb : b ≤ bound
    · simp [hb, bandIndex_cons, ih]
    · have hv : ¬ b ≤ v := fun hbv => hb (hbv.trans h)
      simp [hb, hv, bandIndex_cons, ih]

/-- Two breakpoints in order part the values into three bands. -/
theorem bandIndex_pair {low high : Nat} (h : low ≤ high) (v : Nat) :
    bandIndex [low, high] v = if v < low then 0 else if v < high then 1 else 2 := by
  simp only [bandIndex_cons, bandIndex_nil]
  split_ifs <;> omega

/-- Every breakpoint of a valid section lies from 1 to its limit (R156). -/
theorem bandsValid_mem {limit b : Nat} {bands : List Nat} (h : bandsValid limit bands = true) (hb : b ∈ bands) :
    1 ≤ b ∧ b ≤ limit := by
  simp only [bandsValid, Bool.and_eq_true, List.all_eq_true, decide_eq_true_eq] at h
  obtain ⟨⟨-, hrange⟩, -⟩ := h
  exact hrange b hb

/-- The value 0 is always in band 0, because every breakpoint is at least 1 (R34, R35). -/
theorem bandIndex_zero {limit : Nat} {bands : List Nat} (h : bandsValid limit bands = true) : bandIndex bands 0 = 0 :=
  bandIndex_eq_zero fun _ hb => (bandsValid_mem h hb).1

/-- A value that the section's limit does not exceed is always in the highest band in use (R34). -/
theorem bandIndex_highest {limit v : Nat} {bands : List Nat} (h : bandsValid limit bands = true) (hv : limit ≤ v) :
    bandIndex bands v = bands.length :=
  bandIndex_eq_length fun _ hb => (bandsValid_mem h hb).2.trans hv

/-! ## The whole-km/h magnitude -/

@[simp] theorem wholeKmh_neg (speed : Int) : wholeKmh (-speed) = wholeKmh speed := by
  simp [wholeKmh]

/-- The magnitude stays below `v` km/h exactly between the two speeds of that magnitude, themselves excluded. -/
theorem wholeKmh_lt_iff (speed : Int) (v : Nat) : wholeKmh speed < v ↔ -(10 * v : Int) < speed ∧ speed < 10 * v := by
  unfold wholeKmh
  omega

theorem wholeKmh_le_of_range {speed : Int} (hlow : -2000 ≤ speed) (hhigh : speed ≤ 2000) : wholeKmh speed ≤ 200 :=
  Nat.le_of_lt_succ ((wholeKmh_lt_iff speed 201).mpr (by omega))

/-! ## The cell of an allocation -/

theorem mapShare_eq_filter (s : State) (load : Nat) (speed : Int) :
    mapShare s load speed = readCell s.map ((s.config.loadBands.filter fun b => b ≤ load).length)
      ((s.config.speedBands.filter fun b => b ≤ speed.natAbs / 10).length) := by
  rw [mapShare, bandIndex_eq_length_filter, bandIndex_eq_length_filter, wholeKmh]

/-- Forward and reverse travel at one magnitude select the same cell (R35). -/
theorem mapShare_neg (s : State) (load : Nat) (speed : Int) : mapShare s load (-speed) = mapShare s load speed := by
  simp [mapShare]

/-- The load bands of the default breakpoints (the table of R34). -/
theorem bandIndex_defaultLoadBands (load : Nat) :
    bandIndex [45, 55] load = if load ≤ 44 then 0 else if load ≤ 54 then 1 else 2 := by
  simp only [bandIndex_pair (show 45 ≤ 55 by decide), Nat.lt_succ_iff]

/-- The speed bands of the default breakpoints (the table of R35). -/
theorem bandIndex_defaultSpeedBands (speed : Int) :
    bandIndex [20, 60] (wholeKmh speed)
      = if -199 ≤ speed ∧ speed ≤ 199 then 0 else if -599 ≤ speed ∧ speed ≤ 599 then 1 else 2 := by
  have hslow : wholeKmh speed < 20 ↔ -199 ≤ speed ∧ speed ≤ 199 := by rw [wholeKmh_lt_iff]; omega
  have hmiddle : wholeKmh speed < 60 ↔ -599 ≤ speed ∧ speed ≤ 599 := by rw [wholeKmh_lt_iff]; omega
  simp only [bandIndex_pair (show 20 ≤ 60 by decide), hslow, hmiddle]

/-- Settles O21: each band counts the breakpoints that the value reaches. -/
theorem loadAndSpeedBandsCountTheBreakpointsNotAbove : Obligations.LoadAndSpeedBandsCountTheBreakpointsNotAbove := by
  refine ⟨mapShare_eq_filter, mapShare_neg, fun bands h => ⟨bandIndex_zero h, bandIndex_highest h (by decide)⟩,
    fun _ _ _ => bandIndex_at_breakpoint, fun load _ => bandIndex_defaultLoadBands load, ?_,
    fun speed _ _ => bandIndex_defaultSpeedBands speed⟩
  intro bands speed hvalid hlow hhigh
  have hmax : wholeKmh speed ≤ 200 := wholeKmh_le_of_range hlow hhigh
  exact ⟨hmax, bandIndex_zero hvalid, (bandIndex_filter_le bands hmax).symm⟩

/-! ## MAP FILL -/

theorem decodeRequest_mapFill (p : MasterId) {f : Frame} (h : f.kind = Kind.mapFill) :
    decodeRequest p f = .mapFill p := by
  unfold decodeRequest
  rw [h]
  rfl

theorem mapFillOwner_accepted {f : Frame} (s : State) (h : f.unsignedAt 0 ≤ Config.maxShare) :
    mapFillOwner f s = ([ResultCode.accepted.code], { s with map := Vector.replicate 64 (f.unsignedAt 0) }) :=
  if_pos h

theorem mapFillOwner_refused {f : Frame} (s : State) (h : Config.maxShare < f.unsignedAt 0) :
    mapFillOwner f s = ([ResultCode.badField.code], s) :=
  if_neg h.not_ge

/-- A MAP FILL taken on the demand link is answered by the map. -/
theorem exec_mapFill_demand {f : Frame} {s : State} (h : Ready .demand f s) (hk : f.kind = Kind.mapFill) :
    exec (.mapFill .demand) s = .next (answered .demand f (mapFillOwner f (taken .demand s)).1
      (mapFillOwner f (taken .demand s)).2) := by
  have hexec := exec_ready h
  rwa [decodeRequest_mapFill .demand hk] at hexec

theorem cellIndex_lt {row column : Nat} (hr : row < 8) (hc : column < 8) : cellIndex row column < 64 := by
  simp only [cellIndex, mapSide]
  omega

/-- Every cell of a map filled with one value holds it. -/
theorem readCell_replicate (v : Nat) {row column : Nat} (hr : row < 8) (hc : column < 8) :
    readCell (Vector.replicate 64 v) row column = v := by
  simp [readCell, cellIndex_lt hr hc]

/-- Settles O23: the owner fills the map with the value, or refuses it, and the decoder answers. -/
theorem mapFillSetsEveryCell : Obligations.MapFillSetsEveryCell := by
  intro f s hready hkind
  rw [exec_mapFill_demand hready hkind]
  refine ⟨fun hvalue => ⟨Vector.replicate 64 (f.unsignedAt 0), ?_, fun r c => readCell_replicate _, ?_⟩, fun hvalue => ?_⟩
  · rw [mapFillOwner_accepted _ hvalue]
    rfl
  · intro hdefault
    rw [hdefault]
    rfl
  · rw [mapFillOwner_refused _ hvalue]
    rfl

/-! ## MAP READ -/

theorem decodeRequest_mapRead (p : MasterId) {f : Frame} (h : f.kind = Kind.mapRead) :
    decodeRequest p f = .mapRead p := by
  unfold decodeRequest
  rw [h]
  rfl

theorem mapReadOwner_accepted {f : Frame} (s : State) (h : f.natAt 0 < mapSide) :
    mapReadOwner f s
      = ([ResultCode.accepted.code, f.byteAt 0] ++ (mapRow s.map (f.natAt 0)).flatMap unsignedBytes, s) :=
  if_pos h

theorem mapReadOwner_refused {f : Frame} (s : State) (h : mapSide ≤ f.natAt 0) :
    mapReadOwner f s = ([ResultCode.badField.code], s) :=
  if_neg h.not_gt

/-- A MAP READ taken on either link is answered by the map. -/
theorem exec_mapRead {p : MasterId} {f : Frame} {s : State} (h : Ready p f s) (hk : f.kind = Kind.mapRead) :
    exec (.mapRead p) s
      = .next (answered p f (mapReadOwner f (taken p s)).1 (mapReadOwner f (taken p s)).2) := by
  have hexec := exec_ready h
  rwa [decodeRequest_mapRead p hk] at hexec

theorem mapRow_eq (m : Vector Nat 64) (row : Nat) :
    mapRow m row = [readCell m row 0, readCell m row 1, readCell m row 2, readCell m row 3, readCell m row 4,
      readCell m row 5, readCell m row 6, readCell m row 7] := rfl

/-- Settles O24: the owner reports the row, or refuses it, and leaves the state as it found it. -/
theorem mapReadReportsTheRow : Obligations.MapReadReportsTheRow := by
  intro p f s hready hkind
  rw [exec_mapRead hready hkind]
  refine ⟨fun hrow => ?_, fun hrow => ?_⟩
  · rw [mapReadOwner_accepted _ (Nat.lt_succ_of_le hrow)]
    simp [mapRow_eq, ResultCode.code]
  · rw [mapReadOwner_refused _ hrow]
    rfl

end Sys2Proof.Machine
end

section
/-! PROOFS. The hold stack: LIST HOLDS (R67). -/

namespace Sys2Proof.Machine

/-! ## LIST HOLDS -/

theorem decodeRequest_listHolds (p : MasterId) {f : Frame} (h : f.kind = Kind.listHolds) :
    decodeRequest p f = .listHolds p := by
  unfold decodeRequest
  rw [h]
  rfl

/-- A LIST HOLDS taken on either link is answered by share control. -/
theorem exec_listHolds {p : MasterId} {f : Frame} {s : State} (h : Ready p f s) (hk : f.kind = Kind.listHolds) :
    exec (.listHolds p) s
      = .next (answered p f (listHoldsOwner f (taken p s)).1 (listHoldsOwner f (taken p s)).2) := by
  have hexec := exec_ready h
  rwa [decodeRequest_listHolds p hk] at hexec

/-- The owner reports the depth and the records, bottom first, and leaves the state as it found it. -/
theorem listHoldsOwner_eq (f : Frame) (s : State) :
    listHoldsOwner f s = ([0x00#8, byteOf s.holds.length] ++ s.holds.flatMap HoldRecord.bytes, s) := rfl

/-- A record in a reply: holder, origin and captured mark in one byte, then the share and the tag (R67). -/
theorem HoldRecord.bytes_eq (h : HoldRecord) :
    h.bytes = [byteOf ((match h.holder with | .demandPort => 0 | .stabilityPort => 1 | .allocator => 2)
        + 4 * (match h.origin with | .master => 0 | .lapse => 1) + 8 * h.captured.toNat)]
      ++ unsignedBytes h.share ++ [h.tag] := by
  obtain ⟨holder, origin, share, captured, tag⟩ := h
  cases holder <;> cases origin <;> rfl

/-- Settles O26: the owner lists the stack of the state in which the frame is taken, which is the stack as it stood. -/
theorem listHoldsReportsTheStackBottomFirst : Obligations.ListHoldsReportsTheStackBottomFirst := by
  intro p f s hready hkind
  rw [exec_listHolds hready hkind, listHoldsOwner_eq, taken_holds]
  exact congrArg
    (fun records => Host.Outcome.next (answered p f ([0x00#8, byteOf s.holds.length] ++ records) (taken p s)))
    (List.flatMap_congr fun h _ => HoldRecord.bytes_eq h)

end Sys2Proof.Machine
end

section
/-! PROOFS. What a step can do, said once: every command but the RESET rows, and every part and event of an allocation,
is a chain of moves, each of which changes one block under a guard. An invariant of every step is then proved move by
move. -/

namespace Sys2Proof.Machine

/-! ## The moves of each block -/

/-- What can happen to a master port. `own` says whether the port's own requests and the break of its link may be among
it; a RESTART is not (`restartAll`). -/
inductive PortAct (own : Prop) (m : MasterPort) : MasterPort → Prop
  | receiver (r : Receiver) : PortAct own m { m with receiver := r }
  | linkUp : PortAct own m { m with link := .up }
  | raise (f : EventFlag) : PortAct own m { m with alert := m.alert.raise f }
  | fault (k : LinkFault) : PortAct own m { m with alert := m.alert.recordFault k }
  | enqueue (f : Frame) : m.rxQueue.length < 4 → PortAct own m (m.enqueue f)
  | frameSent : PortAct own m m.frameSent
  | breakEnded : PortAct own m m.breakEnded
  | mirror (r : ResultRecord) : PortAct own m (m.mirrorHandoff r)
  | arbitrate : PortAct own m m.arbitrate
  | settings (masks : Half) (mirror : Bool) : masks.getLsbD 14 = false → masks.getLsbD 15 = false →
      PortAct own m (m.configureAlert masks mirror)
  | dequeue : own → PortAct own m m.dequeue
  | reply (f : Frame) : own → m.replyQueue.length < 4 → PortAct own m (m.placeReply f)
  | clear : own → PortAct own m { m with alert := m.alert.clear }
  | linkBroken : own → PortAct own m m.linkBroken

/-- One good answer counted at an axle supervisor (R111). -/
def AxleUnit.counted (t : Timing) (good : Nat) (u : AxleUnit) : AxleUnit :=
  if t.rejoinCount ≤ good then { u with state := .online, goodCount := 0 }
  else { u with state := .rejoining, goodCount := good }

/-- The axle supervisor after a matched ready answer (R111). -/
def AxleUnit.readied (t : Timing) (u : AxleUnit) : AxleUnit :=
  match u.state with
  | .offline => u.counted t 1
  | .rejoining => u.counted t (u.goodCount + 1)
  | .suspect => { u with state := .online, missCount := 0 }
  | .online => u

/-- What can happen to an axle supervisor with its port under the timing `t`; a COMMAND record is handed to it only while
the allocator `runs`, in RUNNING or LAPSED. -/
inductive AxleAct (t : Timing) (runs : Prop) (u : AxleUnit) : AxleUnit → Prop
  | receiver (r : Receiver) : AxleAct t runs u { u with receiver := r }
  | linkUp : AxleAct t runs u { u with link := .up }
  | clearOutstanding : AxleAct t runs u u.clearOutstanding
  | suspect (n : Nat) : u.state.available = true → 1 ≤ n → n < t.missLimit →
      AxleAct t runs u { u with state := .suspect, missCount := n }
  | lose : u.state ≠ .offline → AxleAct t runs u u.loseAxle
  | completed (r : CommandRecord) (n : Nat) : u.tx = .sending r false → AxleAct t runs u (u.completeCommand r n)
  | voided (r : CommandRecord) : u.tx = .sending r true → AxleAct t runs u { u with tx := .breaking }
  | breakEnded : AxleAct t runs u u.breakEnded
  | stored (b : FeedbackFields) : AxleAct t runs u (u.storeFeedback b)
  | readied (b : FeedbackFields) : u.outstanding.isSome = true → AxleAct t runs u ((u.storeFeedback b).readied t)
  | brokenOffline : u.state = .offline → AxleAct t runs u u.linkBroken
  | broken : AxleAct t runs u u.linkBroken.loseAxle
  | handoff (r : CommandRecord) : runs → r.sound = true → AxleAct t runs u (u.handoff r)

/-- What a claim entry must be to stand in the table (R1, R2, R10, R18). -/
def ClaimEntry.legal (c : ConfigStore) (e : ClaimEntry) : Bool :=
  e.keyLegal && e.valueLegal c && e.lifetimeLegal && e.inverterLegal

/-- What can happen to the claim table under the configuration `c`. -/
inductive TableAct (c : ConfigStore) (t : List ClaimEntry) : List ClaimEntry → Prop
  | remove (keep : ClaimEntry → Bool) : TableAct c t (t.filter keep)
  | store (e : ClaimEntry) : (c.sound = true → e.legal c = true) →
      ((findClaim t e.source e.axle e.kind).isSome ∨ e.source.isMaster = false ∨ masterCount t < 12) →
      TableAct c t (storeClaim t e)
  | orphan (p : MasterId) : TableAct c t
      (t.map fun e => if e.source = p.source then e.orphan c.timing.orphanLifetime else e)
  | serve : TableAct c t (ageClaims (markGoverning t c))

/-- What can happen to the hold stack while the live share is `live`; the LAPSE record comes and goes with the allocator's
own commands. -/
inductive HoldAct (live : Nat) (hs : List HoldRecord) : List HoldRecord → Prop
  | push (h : HoldRecord) : h.origin = .master → h.sound = true → h.share ≤ 1000 ∨ h.share = live → masterHolds hs < 4 →
      HoldAct live hs (hs ++ [h])
  | pop (h : HoldRecord) : hs.getLast? = some h → h.origin = .master → HoldAct live hs hs.dropLast
  | drop (p : MasterId) : HoldAct live hs (hs.filter fun h => !h.heldBy p)

/-- One move of the part. `own p` says whether the requests of port `p` and the break of its link may be among the
moves. -/
inductive Move (own : MasterId → Prop) (s : State) : State → Prop
  | port (p : MasterId) {m : MasterPort} : PortAct (own p) (s.master p) m → Move own s (s.setMaster p m)
  | axle (a : AxleId) {u : AxleUnit} : AxleAct s.config.timing (s.alloc.state.stationary = false) (s.axle a) u →
      Move own s (s.setAxle a u)
  | table {t : List ClaimEntry} : TableAct s.config s.table t → Move own s { s with table := t }
  | bands (b : Option LastBands) : Move own s { s with lastBands := b }
  | holds {hs : List HoldRecord} : HoldAct s.liveShare s.holds hs → Move own s { s with holds := hs }
  | share (av : Availability) (load : Nat) (speed : Int) : Move own s (shareAct av load speed s)
  | map (m : Vector Nat 64) : ((∀ v ∈ s.map.toList, v ≤ 1000) → ∀ v ∈ m.toList, v ≤ 1000) →
      Move own s { s with map := m }
  | config (c : ConfigStore) (st : AllocState) : (s.config.sound = true → c.sound = true) →
      (c.envelope = s.config.envelope ∨ s.table = []) →
      ((c.timing = s.config.timing ∧ st = s.alloc.state)
        ∨ (s.alloc.state.stationary = true ∧ st.stationary = true)) →
      Move own s { s with config := c, alloc := { s.alloc with state := st } }
  | record (al : Allocator) : al.state = s.alloc.state → al.settled = s.alloc.settled →
      al.lapseTimer = s.alloc.lapseTimer → al.lapseStepTimer = s.alloc.lapseStepTimer → Move own s { s with alloc := al }
  | inside (ms : List (List AllocMoment)) : Move own s { s with inside := ms }

/-- A chain of moves. -/
def Moves (own : MasterId → Prop) : State → State → Prop :=
  Relation.ReflTransGen (Move own)

variable {own : MasterId → Prop} {s t u : State}

theorem Moves.refl (s : State) : Moves own s s := Relation.ReflTransGen.refl

theorem Moves.single (h : Move own s t) : Moves own s t := Relation.ReflTransGen.single h

theorem Moves.trans (h : Moves own s t) (h' : Moves own t u) : Moves own s u := Relation.ReflTransGen.trans h h'

/-- What every move keeps, a chain of moves keeps. -/
theorem Moves.keeps {P : State → Prop} (step : ∀ s t, Move own s t → P s → P t) (h : Moves own s t) (hs : P s) : P t := by
  induction h with
  | refl => exact hs
  | tail _ hm ih => exact step _ _ hm ih

/-! ## The operations as moves -/

theorem Moves.onMaster (p : MasterId) {g : MasterPort → MasterPort} (h : PortAct (own p) (s.master p) (g (s.master p))) :
    Moves own s (s.onMaster p g) :=
  .single (.port p h)

theorem Moves.onAxle (a : AxleId) {g : AxleUnit → AxleUnit}
    (h : AxleAct s.config.timing (s.alloc.state.stationary = false) (s.axle a) (g (s.axle a))) :
    Moves own s (s.onAxle a g) :=
  .single (.axle a h)

theorem Moves.raise (p : MasterId) (f : EventFlag) : Moves own s (raise p f s) :=
  .onMaster p (g := fun m => { m with alert := m.alert.raise f }) (.raise f)

theorem Moves.raiseBoth (f : EventFlag) : Moves own s (raiseBoth f s) :=
  (Moves.raise .demand f).trans (Moves.raise .stability f)

theorem Moves.raiseIf (c : Bool) (p : MasterId) (f : EventFlag) : Moves own s (raiseIf c p f s) := by
  cases c
  · exact .refl s
  · exact .raise p f

theorem Moves.raiseBothIf (c : Bool) (f : EventFlag) : Moves own s (raiseBothIf c f s) := by
  cases c
  · exact .refl s
  · exact .raiseBoth f

theorem Moves.setReceiver (l : Link) (r : Receiver) : Moves own s (s.setReceiver l r) := by
  cases l with
  | master p => exact .onMaster p (g := fun m => { m with receiver := r }) (.receiver r)
  | axle a => exact .onAxle a (g := fun u => { u with receiver := r }) (.receiver r)

theorem Moves.setLink_up (l : Link) : Moves own s (s.setLink l .up) := by
  cases l with
  | master p => exact .onMaster p (g := fun m => { m with link := .up }) .linkUp
  | axle a => exact .onAxle a (g := fun u => { u with link := .up }) .linkUp

theorem onAxle_onAxle (s : State) (a : AxleId) (g h : AxleUnit → AxleUnit) :
    (s.onAxle a g).onAxle a h = s.onAxle a (h ∘ g) := by
  cases a <;> rfl

/-! ## Axle events -/

theorem Moves.removeInverterClaims (a : AxleId) : Moves own s (removeInverterClaims a s) :=
  .single (.table (.remove _))

theorem Moves.goOffline (a : AxleId) : Moves own s (goOffline a s) := by
  rcases goOffline_cases a s with ⟨-, h⟩ | ⟨hs, h⟩
  · rw [h]; exact .refl s
  · rw [h]
    exact (Moves.onAxle a (.lose hs)).trans ((Moves.removeInverterClaims a).trans (.raiseBoth .axleDown))

theorem Moves.miss (a : AxleId) : Moves own s (miss a s) := by
  rcases h : (s.axle a).state with _ | _ | _ | _
  · simp only [Machine.miss, h]; exact .refl s
  · simp only [Machine.miss, h]; exact .goOffline a
  · simp only [Machine.miss, h]
    split
    · exact .goOffline a
    · exact .onAxle a (.suspect 1 (by rw [h]; rfl) le_rfl (by omega))
  · simp only [Machine.miss, h]
    split
    · exact .goOffline a
    · have act := AxleAct.suspect (t := s.config.timing) (runs := s.alloc.state.stationary = false) (u := s.axle a)
        ((s.axle a).missCount + 1) (by rw [h]; rfl) (by omega) (by omega)
      rw [← h] at act
      exact .onAxle a act

theorem Moves.countMiss (a : AxleId) : Moves own s (countMiss a s) := by
  unfold Machine.countMiss
  split
  · exact (Moves.onAxle a .clearOutstanding).trans (.miss a)
  · exact .onAxle a .clearOutstanding

/-- The lower edge of a valid envelope does not exceed its upper edge (R152). -/
theorem lowerEdge_le_upperEdge {e : Envelope} (h : envelopeValid e = true) (axle : ClaimAxle) :
    lowerEdge e axle ≤ upperEdge e axle := by
  simp only [envelopeValid, edgesValid, Bool.and_eq_true, decide_eq_true_eq] at h
  cases axle <;> simp only [lowerEdge, upperEdge] <;> omega

/-- A value that passes the envelope test is stored within the edges (R9, R10). -/
theorem envelopeTest_mem {e : Envelope} {q : Policy} {axle : ClaimAxle} {v w : Int} {clamped : Bool}
    (he : envelopeValid e = true) (h : envelopeTest e q axle v = some (w, clamped)) :
    lowerEdge e axle ≤ w ∧ w ≤ upperEdge e axle := by
  have edges := lowerEdge_le_upperEdge he axle
  have clamp : ∀ (act : EdgeAction) (edge : Int), edgeResult act edge = some (w, clamped) → w = edge := by
    intro act edge hr
    cases act
    · exact (congrArg Prod.fst (Option.some.inj hr)).symm
    · cases hr
  unfold envelopeTest at h
  split at h
  · rw [clamp _ _ h]; exact ⟨edges, le_rfl⟩
  · split at h
    · rw [clamp _ _ h]; exact ⟨le_rfl, edges⟩
    · cases h; omega

theorem ConfigStore.sound_iff (c : ConfigStore) : c.sound = true ↔ envelopeValid c.envelope = true
    ∧ motionValid c.motion = true ∧ timingValid c.timing = true ∧ bandsValid 99 c.loadBands = true
    ∧ bandsValid 250 c.speedBands = true := by
  simp [ConfigStore.sound, and_assoc]

theorem ClaimEntry.legal_iff (c : ConfigStore) (e : ClaimEntry) : e.legal c = true ↔ e.keyLegal = true
    ∧ e.valueLegal c = true ∧ e.lifetimeLegal = true ∧ e.inverterLegal = true := by
  simp [ClaimEntry.legal, and_assoc]

/-- The entry that an inverter's derate stores is legal (R18). -/
theorem derateEntry_legal {c : ConfigStore} (hc : c.sound = true) {a : AxleId} {kind : ClaimKind} (hk : kind ≠ .slew)
    {v w : Int} {clamped : Bool} (h : envelopeTest c.envelope c.policy a.claimAxle v = some (w, clamped)) :
    (derateEntry a kind w clamped).legal c = true := by
  have hw := envelopeTest_mem ((ConfigStore.sound_iff c).mp hc).1 h
  refine (ClaimEntry.legal_iff c _).mpr ⟨?_, ?_, rfl, ?_⟩
  · cases kind
    case slew => exact absurd rfl hk
    all_goals cases a <;> rfl
  · cases kind
    case slew => exact absurd rfl hk
    all_goals cases a <;> exact decide_eq_true hw
  · cases a <;> rfl

theorem Moves.derateIntake (a : AxleId) {kind : ClaimKind} (hk : kind ≠ .slew) (d : Derate) :
    Moves own s (derateIntake a kind d s) := by
  cases d with
  | nothing => exact .refl s
  | clear => exact .single (.table (.remove _))
  | present v =>
    simp only [Machine.derateIntake]
    split
    · exact .raiseBoth .inverterClaimAdjusted
    · next w clamped hw =>
      have store : Moves own s { s with table := storeClaim s.table (derateEntry a kind w clamped) } :=
        .single (.table (.store _ (fun hc => derateEntry_legal hc hk hw) (.inr (.inl (by cases a <;> rfl)))))
      refine Moves.trans ?_ (.raiseBothIf clamped .inverterClaimAdjusted)
      unfold storeDerate
      split
      · split
        · exact .refl s
        · exact store
      · exact store

theorem onAxle_self (s : State) (a : AxleId) : s.onAxle a (fun u => u) = s := by
  cases a <;> rfl

theorem onAxle_congr {s : State} {a : AxleId} {g h : AxleUnit → AxleUnit} (e : g (s.axle a) = h (s.axle a)) :
    s.onAxle a g = s.onAxle a h :=
  congrArg (s.setAxle a) e

/-- One good answer changes its axle supervisor, and sets AXLE_UP where the axle becomes ONLINE (R111). -/
theorem countGood_cases (a : AxleId) (good : Nat) (s : State) :
    countGood a good s = s.onAxle a (AxleUnit.counted s.config.timing good)
      ∨ countGood a good s = raiseBoth .axleUp (s.onAxle a (AxleUnit.counted s.config.timing good)) := by
  unfold countGood goOnline AxleUnit.counted
  split
  · exact .inr rfl
  · exact .inl rfl

/-- A matched ready answer changes its axle supervisor, and sets AXLE_UP where the axle rejoins (R111). -/
theorem readyAnswer_cases (a : AxleId) (s : State) :
    readyAnswer a s = s.onAxle a (AxleUnit.readied s.config.timing)
      ∨ readyAnswer a s = raiseBoth .axleUp (s.onAxle a (AxleUnit.readied s.config.timing)) := by
  have eq : ∀ g : AxleUnit → AxleUnit, (s.axle a).readied s.config.timing = g (s.axle a) →
      s.onAxle a (AxleUnit.readied s.config.timing) = s.onAxle a g := fun g h => onAxle_congr h
  unfold readyAnswer
  rcases h : (s.axle a).state with _ | _ | _ | _
  · rw [eq (AxleUnit.counted s.config.timing 1) (by simp only [AxleUnit.readied, h])]
    exact countGood_cases a _ s
  · rw [eq (AxleUnit.counted s.config.timing ((s.axle a).goodCount + 1)) (by simp only [AxleUnit.readied, h])]
    exact countGood_cases a _ s
  · left
    rw [eq (fun u => u) (by simp only [AxleUnit.readied, h]), onAxle_self]
  · left
    rw [eq (fun u => { u with state := .online, missCount := 0 }) (by simp only [AxleUnit.readied, h])]

theorem Moves.feedbackTaken (a : AxleId) (f : Frame) : Moves own s (feedbackTaken a f s) := by
  unfold Machine.feedbackTaken
  split
  · exact .raiseBoth .axleLinkFault
  · split
    · next ho =>
      simp only [Machine.matchedFeedback, Machine.derateHandoff]
      split
      · have act := AxleAct.readied (t := s.config.timing) (runs := s.alloc.state.stationary = false)
          (u := s.axle a) (readFeedback f) (by rw [ho]; rfl)
        have moved : Moves own s ((s.onAxle a (AxleUnit.storeFeedback (readFeedback f))).onAxle a
            (AxleUnit.readied s.config.timing)) := by
          rw [onAxle_onAxle]; exact .onAxle a act
        have answer : Moves own s (readyAnswer a (s.onAxle a (AxleUnit.storeFeedback (readFeedback f)))) := by
          rcases readyAnswer_cases a (s.onAxle a (AxleUnit.storeFeedback (readFeedback f))) with h | h <;>
            rw [h, onAxle_config]
          · exact moved
          · exact moved.trans (.raiseBoth .axleUp)
        exact answer.trans ((Moves.derateIntake a (by decide) _).trans (.derateIntake a (by decide) _))
      · exact (Moves.onAxle a (.stored _)).trans (.goOffline a)
    · exact .raiseBoth .staleFeedback

/-! ## Link events -/

theorem Moves.masterFrameTaken (p : MasterId) (f : Frame) : Moves own s (masterFrameTaken p f s) := by
  unfold Machine.masterFrameTaken
  split
  · next h => exact .onMaster p (.enqueue f h)
  · exact .raise p .frameDropped

theorem Moves.frameTaken (l : Link) (f : Frame) : Moves own s (frameTaken l f s) := by
  cases l with
  | master p => exact .masterFrameTaken p f
  | axle a =>
    simp only [Machine.frameTaken, axleFrameTaken]
    split
    · exact .feedbackTaken a f
    · exact .raiseBoth .axleLinkFault

theorem Moves.faultTo (l : Link) (k : LinkFault) (r : Receiver) : Moves own s (faultTo l k r s) := by
  refine (Moves.setReceiver l r).trans ?_
  cases l with
  | master p => exact .onMaster p (g := fun m => { m with alert := m.alert.recordFault k }) (.fault k)
  | axle a => exact .raiseBoth .axleLinkFault

theorem Moves.correctCharacter (l : Link) (marked : Bool) (b : Byte) : Moves own s (correctCharacter l marked b s) := by
  unfold Machine.correctCharacter payloadCharacter
  split
  · exact .setReceiver l _
  · exact .setReceiver l _
  · exact .faultTo l _ _
  · exact .faultTo l _ _
  · exact .faultTo l _ _
  · exact .refl s
  · split
    · exact .setReceiver l _
    · exact .faultTo l _ _
  · split
    · exact .setReceiver l _
    · split
      · exact (Moves.setReceiver l _).trans (.frameTaken l _)
      · exact .faultTo l _ _

theorem Moves.idleGap (l : Link) : Moves own s (idleGap l s) := by
  unfold Machine.idleGap
  split
  · exact .refl s
  · exact .setReceiver l _
  · exact .faultTo l _ _
  · exact .faultTo l _ _

theorem Moves.removeHolds (p : MasterId) : Moves own s (removeHolds p s) :=
  (Moves.single (.holds (.drop p))).trans (.raiseIf _ _ _)

theorem Moves.orphanClaims (p : MasterId) : Moves own s (orphanClaims p s) :=
  (Moves.single (.table (.orphan p))).trans (.raiseIf _ _ _)

theorem Moves.axleLinkBroken (a : AxleId) : Moves own s (Machine.goOffline a (s.onAxle a AxleUnit.linkBroken)) := by
  have state : ((s.onAxle a AxleUnit.linkBroken).axle a).state = (s.axle a).state := by
    rw [axle_onAxle]
    simp only [AxleUnit.linkBroken, AxleUnit.cutOff, AxleUnit.clearOutstanding]
    split <;> rfl
  rcases goOffline_cases a (s.onAxle a AxleUnit.linkBroken) with ⟨hs, h⟩ | ⟨-, h⟩ <;> rw [h]
  · exact .onAxle a (.brokenOffline (state.symm.trans hs))
  · rw [onAxle_onAxle]
    exact (Moves.onAxle a .broken).trans ((Moves.removeInverterClaims a).trans (.raiseBoth .axleDown))

@[simp] theorem goOffline_axle_tx (a : AxleId) (s : State) : ((goOffline a s).axle a).tx = (s.axle a).tx := by
  rcases goOffline_cases a s with ⟨-, h⟩ | ⟨-, h⟩ <;> rw [h]
  simp [removeInverterClaims, AxleUnit.loseAxle]

@[simp] theorem miss_axle_tx (a : AxleId) (s : State) : ((miss a s).axle a).tx = (s.axle a).tx := by
  rcases miss_cases a s with h | h | ⟨n, -, -, h⟩ <;> rw [h] <;> simp

/-- A miss leaves the transmitter to the frame that it sends. -/
theorem countMiss_axle_tx (a : AxleId) (s : State) : ((countMiss a s).axle a).tx = (s.axle a).tx := by
  unfold countMiss
  split <;> simp [AxleUnit.clearOutstanding]

/-- An event row other than the allocator's own is a chain of moves, the break of a link among its port's own. -/
theorem Moves.eventOf {c : Instr} (h : allocatorsOwn c = false) (hb : ∀ p, c = .masterLinkBreak p → own p) :
    Moves own s (eventOf c s) := by
  cases c <;> first
    | exact .refl s
    | exact absurd h (by decide)
    | skip
  case commandComplete a =>
    simp only [Machine.eventOf]
    split
    · next r htx =>
      exact (Moves.countMiss a).trans (.onAxle a (.completed r _ ((countMiss_axle_tx a s).trans htx)))
    · next r htx => exact .onAxle a (.voided r htx)
    · exact .refl s
    · exact .refl s
  case feedbackWindowExpiry a =>
    simp only [Machine.eventOf]
    split
    · exact .countMiss a
    · exact .refl s
  case feedback a =>
    simp only [Machine.eventOf]
    split
    · split
      · exact (Moves.setReceiver _ _).trans (.feedbackTaken a _)
      · exact .refl s
    · exact .refl s
  case axleForeignFrame a =>
    simp only [Machine.eventOf]
    split
    · split
      · exact (Moves.setReceiver _ _).trans (.raiseBoth _)
      · exact .refl s
    · exact .refl s
  case frameReceived p =>
    simp only [Machine.eventOf]
    split
    · split
      · exact (Moves.setReceiver _ _).trans (.masterFrameTaken p _)
      · exact .refl s
    · exact .refl s
  case receiveFault l k =>
    simp only [Machine.eventOf]
    split
    · split
      · exact .faultTo l _ _
      · exact .refl s
    · exact .refl s
  case frameGapTimeout l =>
    simp only [Machine.eventOf]
    split
    · exact .idleGap l
    · exact .refl s
  case masterLinkBreak p =>
    simp only [Machine.eventOf]
    split
    · exact (Moves.onMaster p (.linkBroken (hb p rfl))).trans ((Moves.removeHolds p).trans (.orphanClaims p))
    · exact .refl s
  case axleLinkBreak a =>
    simp only [Machine.eventOf]
    split
    · exact (Moves.axleLinkBroken a).trans (.raiseBoth _)
    · exact .refl s
  case linkUp l =>
    simp only [Machine.eventOf]
    split
    · exact .refl s
    · exact (Moves.setLink_up l).trans (.setReceiver l _)
  case masterFrameSent p => exact .onMaster p .frameSent
  case breakSent l =>
    cases l with
    | master p => exact .onMaster p .breakEnded
    | axle a => exact .onAxle a .breakEnded
  case characterReceived l marked b =>
    simp only [Machine.eventOf]
    split
    · exact .correctCharacter l marked b
    · exact .refl s

end Sys2Proof.Machine
end

section
/-! PROOFS. The owners of the requests, the parts and events of an allocation, and every command, as chains of moves. -/

namespace Sys2Proof.Machine

variable {own : MasterId → Prop} {s t u : State}

/-! ## What a CLAIM stores -/

/-- An accepted CLAIM passed its five checks (R6 to R12). -/
theorem judgeClaim_ok {p : MasterId} {c : ClaimFields} {s : State} {e : ClaimEntry} (h : judgeClaim p c s = .ok e) :
    ∃ axle kind v clamped, readKey c.axle c.kind = some (axle, kind) ∧ valueInRange axle kind c.value = true
      ∧ c.lifetime ≤ 250 ∧ claimTest s.config.envelope s.config.policy axle kind c.value = some (v, clamped)
      ∧ e = claimEntry p axle kind v clamped c
      ∧ ((findClaim s.table e.source e.axle e.kind).isSome ∨ masterCount s.table < 12) := by
  unfold judgeClaim at h
  split at h
  · cases h
  · split at h
    · cases h
    · next axle kind hkey =>
      split at h
      · cases h
      · next hrange =>
        split at h
        · cases h
        · next v clamped htest =>
          obtain ⟨hv, hl⟩ : valueInRange axle kind c.value = true ∧ c.lifetime ≤ 250 := by
            simpa using hrange
          refine ⟨axle, kind, v, clamped, hkey, hv, hl, htest, ?_⟩
          unfold judgeStorage at h
          split at h
          · next old hold =>
            split at h
            · cases h
            · cases h; exact ⟨rfl, .inl (by rw [hold]; rfl)⟩
          · split at h
            · cases h
            · next hroom => cases h; exact ⟨rfl, .inr (by simpa using hroom)⟩

/-- A key that the codes name is no SLEW on TOTAL (R2). -/
theorem keyExists_of_readKey {a k : Byte} {axle : ClaimAxle} {kind : ClaimKind} (h : readKey a k = some (axle, kind)) :
    keyExists axle kind = true := by
  unfold readKey at h
  split at h
  · split at h
    · next he => cases h; exact he
    · cases h
  · cases h

/-- The entry that an accepted CLAIM stores is legal (R1, R2, R10). -/
theorem judgeClaim_legal {p : MasterId} {c : ClaimFields} {s : State} {e : ClaimEntry} (hc : s.config.sound = true)
    (h : judgeClaim p c s = .ok e) : e.legal s.config = true := by
  obtain ⟨axle, kind, v, clamped, hkey, hrange, hlife, htest, rfl, -⟩ := judgeClaim_ok h
  have hk := keyExists_of_readKey hkey
  refine (ClaimEntry.legal_iff _ _).mpr ⟨?_, ?_, ?_, ?_⟩
  · cases p <;> exact hk
  · cases kind
    case slew =>
      cases htest
      cases axle <;> exact hrange
    all_goals exact decide_eq_true (envelopeTest_mem ((ConfigStore.sound_iff _).mp hc).1 htest)
  · by_cases hz : c.lifetime = 0
    · simp [ClaimEntry.lifetimeLegal, claimEntry, hz]
    · simp only [ClaimEntry.lifetimeLegal, claimEntry, if_neg hz, decide_eq_true_eq]
      omega
  · cases p <;> rfl

/-! ## What a CONFIGURE stores -/

/-- A CONFIGURE is accepted exactly when its five checks pass (R150). -/
theorem configureRefusal_none {l k st t f : Bool} :
    configureRefusal l k st t f = none ↔ l = true ∧ k = true ∧ st = true ∧ t = true ∧ f = true := by
  cases l <;> cases k <;> cases st <;> cases t <;> cases f <;> simp [configureRefusal]

/-- A CONFIGURE answer is a refusal that changes nothing, or the storing of its section. -/
theorem Moves.configureAnswer {r : Option ResultCode} {n : Nat} {store : State → State}
    (h : r = none → Moves own s (store s)) : Moves own s (configureAnswer r n store s).2 := by
  cases r with
  | none => exact h rfl
  | some c => exact .refl s

/-- The configuration with one section replaced in a state that accepts it. -/
theorem Moves.configSection (c : ConfigStore) (hs : s.config.sound = true → c.sound = true)
    (he : c.envelope = s.config.envelope) (ht : c.timing = s.config.timing ∨ s.alloc.state.stationary = true) :
    Moves own s { s with config := c } :=
  .single (.config c s.alloc.state hs (.inl he) (ht.imp (fun h => ⟨h, rfl⟩) fun h => ⟨h, h⟩))

theorem Moves.storeEnvelope (e : Envelope) (hst : s.alloc.state.stationary = true) (htab : s.table = [])
    (hv : envelopeValid e = true) : Moves own s (storeEnvelope e s) := by
  refine .single (.config { s.config with envelope := e } _ (fun hs => ?_) (.inr htab) (.inr ⟨hst, ?_⟩))
  · rw [ConfigStore.sound_iff] at hs ⊢
    exact ⟨hv, hs.2⟩
  · split
    · rfl
    · exact hst

theorem Moves.configureOwner {c : Instr} {p : MasterId} {f : Frame} {s : State}
    (h : c ∈ [Instr.configureEnvelope p, .configurePolicy p, .configureMotion p, .configureTiming p,
      .configureLoadBands p, .configureSpeedBands p, .configureAlert p]) : Moves own s (ownerOf c f s).2 := by
  simp only [List.mem_cons, List.not_mem_nil, or_false] at h
  rcases h with rfl | rfl | rfl | rfl | rfl | rfl | rfl
  · refine .configureAnswer fun hr => ?_
    obtain ⟨-, -, hst, htab, hv⟩ := configureRefusal_none.mp hr
    exact .storeEnvelope _ hst (by simpa using htab) hv
  · refine .configureAnswer fun hr => ?_
    exact .configSection _ id rfl (.inl rfl)
  · refine .configureAnswer fun hr => ?_
    obtain ⟨-, -, -, -, hv⟩ := configureRefusal_none.mp hr
    refine .configSection { s.config with motion := readMotion f } (fun hs => ?_) rfl (.inl rfl)
    obtain ⟨h1, -, h3⟩ := (ConfigStore.sound_iff _).mp hs
    exact (ConfigStore.sound_iff _).mpr ⟨h1, hv, h3⟩
  · refine .configureAnswer fun hr => ?_
    obtain ⟨-, -, hst, -, hv⟩ := configureRefusal_none.mp hr
    refine .configSection { s.config with timing := readTiming f } (fun hs => ?_) rfl (.inr hst)
    obtain ⟨h1, h2, -, h4⟩ := (ConfigStore.sound_iff _).mp hs
    exact (ConfigStore.sound_iff _).mpr ⟨h1, h2, hv, h4⟩
  · refine .configureAnswer fun hr => ?_
    obtain ⟨-, -, -, -, hv⟩ := configureRefusal_none.mp hr
    refine .configSection { s.config with loadBands := readBands f } (fun hs => ?_) rfl (.inl rfl)
    obtain ⟨h1, h2, h3, -, h5⟩ := (ConfigStore.sound_iff _).mp hs
    exact (ConfigStore.sound_iff _).mpr ⟨h1, h2, h3, hv, h5⟩
  · refine .configureAnswer fun hr => ?_
    obtain ⟨-, -, -, -, hv⟩ := configureRefusal_none.mp hr
    refine .configSection { s.config with speedBands := readBands f } (fun hs => ?_) rfl (.inl rfl)
    obtain ⟨h1, h2, h3, h4, -⟩ := (ConfigStore.sound_iff _).mp hs
    exact (ConfigStore.sound_iff _).mpr ⟨h1, h2, h3, h4, hv⟩
  · refine .configureAnswer fun hr => ?_
    obtain ⟨-, -, -, -, hv⟩ := configureRefusal_none.mp hr
    simp only [alertValid, Bool.and_eq_true, Bool.not_eq_true'] at hv
    exact .onMaster p (.settings _ _ hv.1.1 hv.1.2)

/-! ## What a HOLD pushes and a MAP WRITE writes -/

theorem holdRecord_sound (p : MasterId) (h : HoldFields) (live : Nat) : (holdRecord p h live).sound = true := by
  cases p <;> rfl

/-- The share of a pushed record is the given one, of at most 1000, or the live share (R54, R55). -/
theorem holdRecord_share {p : MasterId} {h : HoldFields} {live : Nat} (hv : holdValid h = true) :
    (holdRecord p h live).share ≤ 1000 ∨ (holdRecord p h live).share = live := by
  unfold holdRecord
  by_cases hi : h.indication = 1#8
  · left
    simp [holdValid, hi] at hv
    simpa [hi] using hv
  · right
    simp [hi]

/-- A written cell holds a value that the map or the list held. -/
theorem mem_writeCells (m : Vector Nat 64) (i : Nat) (vs : List Nat) {v : Nat} (h : v ∈ (writeCells m i vs).toList) :
    v ∈ m.toList ∨ v ∈ vs := by
  induction vs generalizing m i with
  | nil => exact .inl h
  | cons w rest ih =>
    rcases ih _ _ h with h | h
    · rw [Vector.toList_setIfInBounds] at h
      rcases List.mem_or_eq_of_mem_set h with h | h
      · exact .inl h
      · exact .inr (by simp [h])
    · exact .inr (List.mem_cons_of_mem _ h)

theorem Moves.mapWriteOwner (f : Frame) : Moves own s (mapWriteOwner f s).2 := by
  unfold Machine.mapWriteOwner
  split
  · next hv =>
    refine .single (.map _ fun hm v hmem => ?_)
    simp only [mapWriteValid, Bool.and_eq_true, List.all_eq_true, decide_eq_true_eq] at hv
    rcases mem_writeCells _ _ _ hmem with h | h
    · exact hm v h
    · exact hv.2 v h
  · exact .refl s

theorem Moves.mapFillOwner (f : Frame) : Moves own s (mapFillOwner f s).2 := by
  unfold Machine.mapFillOwner
  split
  · next hv =>
    refine .single (.map _ fun _ v hmem => ?_)
    rw [Vector.toList_replicate] at hmem
    rw [List.eq_of_mem_replicate hmem]
    exact hv
  · exact .refl s

theorem Moves.onDemandLink {p : MasterId} {owner : Frame → State → List Byte × State} {f : Frame}
    (h : p = .demand → Moves own s (owner f s).2) : Moves own s (onDemandLink p owner f s).2 := by
  cases p
  · exact h rfl
  · exact .refl s

/-- The owner of a request row other than the allocator's own acts in a chain of moves, the clearing of the flags by a
STATUS among its port's own. -/
theorem Moves.ownerOf {c : Instr} (h : allocatorsOwn c = false) (hs : ∀ p, c = .status p → own p) (f : Frame) :
    Moves own s (ownerOf c f s).2 := by
  cases c <;> first
    | exact .refl s
    | skip
  case demand p => cases p; exact absurd h (by decide); exact .refl s
  case restart p => cases p; exact absurd h (by decide); exact .refl s
  case claim p =>
    simp only [Machine.ownerOf, claimOwner]
    split
    · exact .refl s
    · next e he =>
      obtain ⟨_, _, _, _, -, -, -, -, -, hroom⟩ := judgeClaim_ok he
      exact .single (.table (.store e (fun hc => judgeClaim_legal hc he) (hroom.imp_right .inr)))
  case release p =>
    simp only [Machine.ownerOf, releaseOwner]
    split
    · exact .refl s
    · split
      · exact .single (.table (.remove _))
      · exact .refl s
  case releaseAll p => exact .single (.table (.remove _))
  case hold p =>
    simp only [Machine.ownerOf, holdOwner]
    split
    · exact .refl s
    · split
      · exact .refl s
      · next hv =>
        split
        · exact .refl s
        · next hroom =>
          exact .single (.holds (.push _ rfl (holdRecord_sound _ _ _) (holdRecord_share (by simpa using hv))
            (Nat.lt_of_not_le hroom)))
  case resume p =>
    simp only [Machine.ownerOf, resumeOwner]
    split
    · exact .refl s
    · next r hr =>
      split
      · next ho =>
        simp only [Bool.and_eq_true, decide_eq_true_eq] at ho
        exact .single (.holds (.pop r hr ho.1))
      · exact .refl s
  case configureEnvelope p => exact .configureOwner (p := p) (by simp)
  case configurePolicy p => exact .configureOwner (p := p) (by simp)
  case configureMotion p => exact .configureOwner (p := p) (by simp)
  case configureTiming p => exact .configureOwner (p := p) (by simp)
  case configureLoadBands p => exact .configureOwner (p := p) (by simp)
  case configureSpeedBands p => exact .configureOwner (p := p) (by simp)
  case configureAlert p => exact .configureOwner (p := p) (by simp)
  case mapWrite p => exact .onDemandLink fun _ => .mapWriteOwner f
  case mapFill p => exact .onDemandLink fun _ => .mapFillOwner f
  case mapRead p =>
    simp only [Machine.ownerOf, mapReadOwner]
    split <;> exact .refl s
  case status p => exact .onMaster p (g := fun m => { m with alert := m.alert.clear }) (.clear (hs p rfl))

/-! ## The reply's room -/

/-- Only a reply lengthens a reply queue (R159). -/
theorem PortAct.replyQueue_le {k : Prop} {m m' : MasterPort} (h : PortAct k m m') (hk : ¬ k) :
    m'.replyQueue.length ≤ m.replyQueue.length := by
  have arb : ∀ m : MasterPort, m.arbitrate.replyQueue.length ≤ m.replyQueue.length := by
    intro m
    obtain e | ⟨r, rest, -, hq, e⟩ | ⟨rec, -, hq, -, e⟩ := m.arbitrate_cases
    · rw [e]
    · rw [e, hq]; simp
    · rw [e]
  cases h with
  | receiver | linkUp | raise | fault | settings | enqueue => exact le_rfl
  | frameSent =>
    rcases m.frameSent_cases with e | e | e <;> rw [e]
    exact arb { m with tx := .idle }
  | breakEnded =>
    rcases m.breakEnded_cases with e | e <;> rw [e]
    exact arb { m with tx := .idle }
  | mirror r => rw [MasterPort.mirrorHandoff_replyQueue]
  | arbitrate => exact arb m
  | dequeue h => exact absurd h hk
  | reply _ h => exact absurd h hk
  | clear h => exact absurd h hk
  | linkBroken h => exact absurd h hk

/-- A move at one port leaves the other. -/
theorem master_setMaster_of_ne (s : State) {p q : MasterId} (h : q ≠ p) (m : MasterPort) :
    (s.setMaster p m).master q = s.master q :=
  master_onMaster_of_ne s h fun _ => m

/-- A move that is not at port `p` leaves it. -/
theorem Move.master_cases (h : Move own s t) (p : MasterId) :
    t.master p = s.master p ∨ PortAct (own p) (s.master p) (t.master p) := by
  cases h with
  | port q ha =>
    by_cases hq : p = q
    · subst hq; right; rw [master_setMaster]; exact ha
    · left; exact master_setMaster_of_ne s hq _
  | axle a => left; exact setAxle_master s a _ p
  | share av load speed => left; exact shareAct_master s av load speed p
  | table | bands | holds | map | config | record | inside => left; cases p <;> rfl

/-- What every move at port `p` keeps of it, a chain of moves keeps. -/
theorem Moves.port_keeps {p : MasterId} {P : MasterPort → Prop} (act : ∀ m m', PortAct (own p) m m' → P m → P m')
    (h : Moves own s t) : P (s.master p) → P (t.master p) :=
  h.keeps (P := fun s => P (s.master p)) fun s t hm hs => by
    rcases hm.master_cases p with e | ha
    · rw [e]; exact hs
    · exact act _ _ ha hs

/-- A chain without the port's own requests leaves room for its reply (R159). -/
theorem Moves.replyRoom {p : MasterId} (h : Moves own s t) (hp : ¬ own p) :
    (s.master p).replyQueue.length < 4 → (t.master p).replyQueue.length < 4 :=
  h.port_keeps (P := fun m => m.replyQueue.length < 4) fun _ _ ha hm => (ha.replyQueue_le hp).trans_lt hm

theorem Moves.mono {own' : MasterId → Prop} (himp : ∀ p, own p → own' p) (h : Moves own s t) : Moves own' s t := by
  refine Relation.ReflTransGen.mono (fun s t hm => ?_) _ _ h
  cases hm with
  | port p ha =>
    refine .port p ?_
    cases ha with
    | receiver r => exact .receiver r
    | linkUp => exact .linkUp
    | raise f => exact .raise f
    | fault k => exact .fault k
    | enqueue f h => exact .enqueue f h
    | frameSent => exact .frameSent
    | breakEnded => exact .breakEnded
    | mirror r => exact .mirror r
    | arbitrate => exact .arbitrate
    | settings m b h1 h2 => exact .settings m b h1 h2
    | dequeue h => exact .dequeue (himp p h)
    | reply f h h' => exact .reply f (himp p h) h'
    | clear h => exact .clear (himp p h)
    | linkBroken h => exact .linkBroken (himp p h)
  | axle a ha => exact .axle a ha
  | table h => exact .table h
  | bands b => exact .bands b
  | holds h => exact .holds h
  | share av load speed => exact .share av load speed
  | map m h => exact .map m h
  | config c st h1 h2 h3 => exact .config c st h1 h2 h3
  | record al h1 h2 h3 h4 => exact .record al h1 h2 h3 h4
  | inside ms => exact .inside ms

theorem Ready.room {p : MasterId} {f : Frame} (h : Ready p f s) :
    ((taken p s).master p).replyQueue.length < 4 := by
  rw [taken_replyQueue]
  exact h.2.2

/-- The frame leaves the receive queue. -/
theorem Moves.taken {p : MasterId} (hp : own p) : Moves own s (taken p s) := .onMaster p (.dequeue hp)

/-- The reply is placed where there is room. -/
theorem Moves.answered {p : MasterId} (hp : own p) (f : Frame) (payload : List Byte)
    (hroom : (s.master p).replyQueue.length < 4) : Moves own s (answered p f payload s) :=
  .onMaster p (.reply _ hp hroom)

/-- A request other than the allocator's own is taken, acted on and answered in a chain of moves. -/
theorem Moves.request {c : Instr} {p : MasterId} {f : Frame} (hc : allocatorsOwn c = false)
    (hreq : requestPort c = some p) (hp : own p) (h : Ready p f s) :
    Moves own s (Machine.answered p f (Machine.ownerOf c f (Machine.taken p s)).1
      (Machine.ownerOf c f (Machine.taken p s)).2) := by
  have act : Moves own (Machine.taken p s) (Machine.ownerOf c f (Machine.taken p s)).2 := by
    refine .ownerOf hc (fun q hq => ?_) f
    subst hq; cases hreq; exact hp
  have room : ((Machine.ownerOf c f (Machine.taken p s)).2.master p).replyQueue.length < 4 := by
    by_cases hst : c = .status p
    · subst hst; simpa [Machine.ownerOf, statusOwner] using h.2.2
    · refine Moves.replyRoom (own := fun q => q ≠ p) (.ownerOf hc ?_ f) (by simp) h.room
      rintro q rfl rfl; exact hst rfl
  exact (Moves.taken hp).trans (act.trans (.answered hp f _ room))

/-- A command other than the allocator's own is a chain of moves. -/
theorem Moves.exec {c : Instr} (hc : allocatorsOwn c = false)
    (hown : ∀ p, requestPort c = some p ∨ c = .masterLinkBreak p → own p) (he : exec c s = .next t) :
    Moves own s t := by
  rcases exec_cases c s with e | ⟨p, f, hreq, hr, -, e⟩ | ⟨-, -, e⟩ | ⟨rfl, -⟩ | ⟨_, _, rfl, -⟩
  · cases he.symm.trans e; exact .refl s
  · cases he.symm.trans e
    exact .request hc hreq (hown p (.inl hreq)) hr
  · cases he.symm.trans e
    exact .eventOf hc fun p hp => hown p (.inr hp)
  · exact absurd hc (by decide)
  · exact absurd hc (by simp [allocatorsOwn])

/-! ## Allocations -/

/-- While the allocator is RUNNING or LAPSED no move but its own changes its state (R151). -/
theorem Moves.runs (h : Moves own s t) (hs : s.alloc.state.stationary = false) : t.alloc.state = s.alloc.state := by
  refine h.keeps (P := fun t => t.alloc.state = s.alloc.state) (fun a b hm ha => ?_) rfl
  rw [← ha]
  cases hm with
  | port p => rw [setMaster_alloc]
  | axle a => rw [setAxle_alloc]
  | share => rw [shareAct_alloc]
  | config c st _ _ h3 =>
    rcases h3 with ⟨-, h⟩ | ⟨h, -⟩
    · exact h
    · rw [ha, hs] at h; cases h
  | record al h => exact h
  | table | bands | holds | map | inside => rfl

/-- The COMMAND record that an allocation forms is sound, available axle or not (R83 to R85, R88). -/
theorem commandRecord_sound (sequence : Byte) (available : Bool) (b : Band) (p target slew : Int) :
    (commandRecord sequence available b (command available b p target slew)).sound = true := by
  cases available
  · rfl
  · exact decide_eq_true (b.clamp_mem _)

theorem formed_commandOf_sound (w : Allocating) (s : State) (a : AxleId) : ((w.formed s).commandOf a).sound = true := by
  cases a <;> exact commandRecord_sound _ _ _ _ _ _

/-- An event inside an allocation is a chain of moves; the requests and the break of the port that waits for the reply are
not among them. -/
theorem Moves.eventAfter (replying : Option MasterId) (e : InnerEvent)
    (hown : ∀ p, replying ≠ some p → e = .request p ∨ e = .masterLinkBreak p → own p) :
    Moves own s (eventAfter replying e s) := by
  have row : ∀ c, allocatorsOwn c = false → (∀ p, requestPort c = some p ∨ c = .masterLinkBreak p → own p) →
      eventOutcome replying e s = Machine.exec c s → Moves own s (Machine.eventAfter replying e s) := by
    intro c hc ho he
    obtain ⟨t, ht⟩ := exec_next c s
    rw [Machine.eventAfter, he, ht]
    exact .exec hc ho ht
  have nothing : eventOutcome replying e s = .next s → Moves own s (Machine.eventAfter replying e s) := by
    intro he
    rw [Machine.eventAfter, he]
    exact .refl s
  cases e with
  | request p =>
    by_cases h : replying = some p
    · exact nothing (by simp [eventOutcome, h])
    · rcases requestInside_cases p s with hq | ⟨c, hc, hr, hq⟩
      · exact nothing (by simp [eventOutcome, h, hq])
      · refine row c hc (fun q hq => ?_) (by simp [eventOutcome, h, hq])
        rcases hq with hq | hq
        · cases hr.symm.trans hq; exact hown p h (.inl rfl)
        · subst hq; cases hr
  | masterLinkBreak p =>
    by_cases h : replying = some p
    · exact nothing (by simp [eventOutcome, h])
    · refine row (.masterLinkBreak p) rfl (fun q hq => ?_) (by simp [eventOutcome, h, Machine.exec])
      rcases hq with hq | hq <;> cases hq
      exact hown p h (.inr rfl)
  | commandComplete a => exact row (.commandComplete a) rfl (by simp [requestPort]) rfl
  | feedbackWindowExpiry a => exact row (.feedbackWindowExpiry a) rfl (by simp [requestPort]) rfl
  | feedback a => exact row (.feedback a) rfl (by simp [requestPort]) rfl
  | axleForeignFrame a => exact row (.axleForeignFrame a) rfl (by simp [requestPort]) rfl
  | frameReceived q => exact row (.frameReceived q) rfl (by simp [requestPort]) rfl
  | receiveFault l c => exact row (.receiveFault l c) rfl (by simp [requestPort]) rfl
  | frameGapTimeout l => exact row (.frameGapTimeout l) rfl (by simp [requestPort]) rfl
  | axleLinkBreak a => exact row (.axleLinkBreak a) rfl (by simp [requestPort]) rfl
  | linkUp l => exact row (.linkUp l) rfl (by simp [requestPort]) rfl
  | masterFrameSent q => exact row (.masterFrameSent q) rfl (by simp [requestPort]) rfl
  | breakSent l => exact row (.breakSent l) rfl (by simp [requestPort]) rfl
  | characterReceived l m b => exact row (.characterReceived l m b) rfl (by simp [requestPort]) rfl

theorem Moves.claimTableAct : Moves own s (claimTableAct s) := by
  have act : Moves own s { s with
      table := ageClaims (markGoverning s.table s.config)
      lastBands := some ⟨bandOf s.table s.config .front, bandOf s.table s.config .rear⟩ } :=
    (Moves.single (.table .serve)).trans (.single (.bands _))
  exact act.trans ((Moves.raiseIf _ _ _).trans (.raiseIf _ _ _))

/-- A part of an allocation in RUNNING or LAPSED is a chain of moves. -/
theorem Moves.takePart (x : AllocPart) (w : Allocating) (hs : s.alloc.state.stationary = false) :
    Moves own s (takePart x w s).2 := by
  rcases takePart_state x w s with h | h | ⟨av, h⟩ | ⟨-, h⟩ | ⟨a, -, h⟩ | ⟨q, -, h⟩ <;> rw [h]
  · exact .refl s
  · exact .claimTableAct
  · exact .single (.share av _ _)
  · refine Moves.trans (.single (.record { s.alloc with
      lastClipped := (w.formed s).clipped, lastResult := some (w.formed s).result } rfl rfl rfl rfl)) ?_
    exact (Moves.raiseBothIf _ _).trans (.raiseBothIf _ _)
  · exact (Moves.onAxle a (.handoff _ hs (formed_commandOf_sound w s a))).trans (.raiseBothIf _ _)
  · unfold mirrorHandOver
    by_cases hq : w.replying = some q
    · simp only [hq, if_true]
      exact .onMaster q (.mirror _)
    · simp only [hq, if_false]
      have first : Moves own s (s.onMaster q (MasterPort.mirrorHandoff (w.formed s).result)) := .onMaster q (.mirror _)
      have then_ : Moves own (s.onMaster q (MasterPort.mirrorHandoff (w.formed s).result))
          ((s.onMaster q (MasterPort.mirrorHandoff (w.formed s).result)).onMaster q MasterPort.arbitrate) :=
        .onMaster q .arbitrate
      have eq : (s.onMaster q (MasterPort.mirrorHandoff (w.formed s).result)).onMaster q MasterPort.arbitrate
          = s.onMaster q fun m => (m.mirrorHandoff (w.formed s).result).arbitrate := by cases q <;> rfl
      exact eq ▸ first.trans then_

/-- An allocation in RUNNING or LAPSED is a chain of moves: of its own parts and of the events inside it. -/
theorem Moves.allocateWith (replying : Option MasterId) (inp : AllocInput) (hs : s.alloc.state.stationary = false)
    (hown : ∀ ms ∈ s.inside, ∀ p, replying ≠ some p →
      .event (.request p) ∈ ms ∨ .event (.masterLinkBreak p) ∈ ms → own p) :
    Moves own s (allocateWith replying inp s).2 := by
  have stays : ∀ {t}, Moves own s t → t.alloc.state.stationary = false := fun h => by rw [h.runs hs]; exact hs
  have start : Moves own s (startAllocating replying inp s).2 :=
    (Moves.single (.inside s.inside.tail)).trans (.single (.record _ rfl rfl rfl rfl))
  have moments : ∀ ms : List AllocMoment, (∀ p, replying ≠ some p →
      .event (.request p) ∈ ms ∨ .event (.masterLinkBreak p) ∈ ms → own p) →
      let ws := ms.foldl (fun ws m => takeMoment m ws) (startAllocating replying inp s)
      ws.1.replying = replying ∧ Moves own s ws.2 := by
    intro ms hms
    refine List.foldlRecOn ms _ (motive := fun (ws : Allocating × State) => ws.1.replying = replying ∧ Moves own s ws.2) ⟨rfl, start⟩ ?_
    rintro ⟨w, t⟩ ⟨hr, hm⟩ m hmem
    cases m with
    | part x =>
      simp only [takeMoment]
      split
      · exact ⟨hr, hm⟩
      · exact ⟨(takePart_done x w t).1.trans hr, hm.trans (.takePart x w (stays hm))⟩
    | event e =>
      refine ⟨hr, hm.trans (.eventAfter _ e fun p hp he => hms p (by rwa [← hr]) ?_)⟩
      rcases he with rfl | rfl
      · exact .inl hmem
      · exact .inr hmem
  have inner := moments (s.inside.headD []) (by
    rcases hi : s.inside with _ | ⟨ms, rest⟩
    · simp
    · exact hown ms (by simp [hi]))
  refine (List.foldlRecOn partOrder _ (motive := fun (ws : Allocating × State) => Moves own s ws.2) inner.2 ?_)
  intro ws hm x _
  exact hm.trans (.takePart x ws.1 (stays hm))

/-! ## Every command -/

/-- The state after the lapse timer's expiry in RUNNING, before its flag (R60, R136). -/
def enterLapsed (s : State) : State :=
  { lapsePush s with
    alloc := { s.alloc with
      state := .lapsed
      settled := false
      lapseTimer := .stopped
      lapseStepTimer := .running s.config.timing.lapseStep } }

/-- Whether a state is one of RESET: the power-on values, with the two queues of the model as they were. -/
def AfterReset (s t : State) : Prop :=
  t = { State.powerOn with pending := s.pending, inside := s.inside } ∨ ∃ brs1 brs0, t = releaseReset brs1 brs0 s

theorem enterRunning_stationary (d : DemandFields) (s : State) :
    (enterRunning d s).alloc.state.stationary = false := rfl

theorem enterRunning_master (d : DemandFields) (s : State) (p : MasterId) :
    (enterRunning d s).master p = s.master p := by
  unfold enterRunning
  by_cases h : s.alloc.state = .lapsed <;> cases p <;> simp [h, lapseRemoval]

theorem own_cases (c : Instr) : allocatorsOwn c = false ∨ c = .demand .demand ∨ c = .restart .demand
    ∨ c = .lapseTimerExpiry ∨ c = .lapseStep ∨ c = .resetAssert ∨ ∃ brs1 brs0, c = .resetRelease brs1 brs0 := by
  cases c with
  | demand p => cases p <;> simp [allocatorsOwn]
  | restart p => cases p <;> simp [allocatorsOwn]
  | _ => simp [allocatorsOwn]

/-- A DEMAND on the demand link is refused, or enters RUNNING and starts an allocation (R132 to R134). -/
theorem exec_demand_moves (he : exec (.demand .demand) s = .next t) : Moves (fun _ => True) s t
    ∨ ∃ d v, Moves (fun _ => True) s v ∧ v.alloc.state ≠ .unconfigured ∧ Moves (fun _ => True) (enterRunning d v) t := by
  rcases taking_cases (.demand .demand) .demand s (onDemandLink .demand demandOwner) with e | ⟨f, hr, -, e⟩ <;>
    cases he.symm.trans e
  · exact .inl (.refl s)
  · have room := hr.room
    have take : Moves (fun _ => True) s (taken .demand s) := .taken trivial
    simp only [onDemandLink, demandOwner]
    split
    · exact .inl (take.trans (.answered trivial f _ room))
    · next hu =>
      split
      · exact .inl (take.trans (.answered trivial f _ room))
      · have act : Moves (fun q => q ≠ .demand) (enterRunning (readDemand f) (taken .demand s))
            (allocateWith (some .demand) (demandInput (readDemand f))
              (enterRunning (readDemand f) (taken .demand s))).2 :=
          .allocateWith _ _ (enterRunning_stationary _ _) fun _ _ q hq _ => by rintro rfl; exact hq rfl
        have roomAfter := act.replyRoom (p := .demand) (by simp) (by rw [enterRunning_master]; exact room)
        exact .inr ⟨readDemand f, taken .demand s, take, hu,
          (act.mono fun _ _ => trivial).trans (.answered trivial f _ roomAfter)⟩

/-- A RESTART on the demand link resets every owner (R143). -/
theorem exec_restart_moves (he : exec (.restart .demand) s = .next t) : Moves (fun _ => True) s t
    ∨ ∃ v, Moves (fun _ => True) s v ∧ Moves (fun _ => True) (restartAll v) t := by
  rcases taking_cases (.restart .demand) .demand s (onDemandLink .demand restartOwner) with e | ⟨f, hr, -, e⟩ <;>
    cases he.symm.trans e
  · exact .inl (.refl s)
  · refine .inr ⟨taken .demand s, .taken trivial, .answered trivial f _ ?_⟩
    show (taken .demand s).demandPort.sendBreak.replyQueue.length < 4
    rw [MasterPort.sendBreak_replyQueue]
    exact hr.room

theorem exec_lapseTimerExpiry_moves (he : exec .lapseTimerExpiry s = .next t) :
    t = s ∨ (s.alloc.state = .running ∧ Moves (fun _ => True) (enterLapsed s) t) := by
  rcases exec_cases .lapseTimerExpiry s with e | ⟨_, _, h, -⟩ | ⟨-, -, e⟩ | ⟨h, -⟩ | ⟨_, _, h, -⟩
  · cases he.symm.trans e; exact .inl rfl
  · cases h
  · cases he.symm.trans e
    simp only [eventOf]
    split
    · next hst _ => exact .inr ⟨hst, .raiseBoth _⟩
    · exact .inl rfl
  · cases h
  · cases h

theorem exec_lapseStep_moves (he : exec .lapseStep s = .next t) :
    t = s ∨ ∃ settles v, s.alloc.state = .lapsed ∧ Moves (fun _ => True) s v ∧ t = endLapseStep settles v := by
  rcases exec_cases .lapseStep s with e | ⟨_, _, h, -⟩ | ⟨-, -, e⟩ | ⟨h, -⟩ | ⟨_, _, h, -⟩
  · cases he.symm.trans e; exact .inl rfl
  · cases h
  · cases he.symm.trans e
    simp only [eventOf]
    split
    · next hst _ _ =>
      exact .inr ⟨_, _, hst, .allocateWith none _ (by rw [hst]; rfl) fun _ _ _ _ _ => trivial, rfl⟩
    · exact .inl rfl
  · cases h
  · cases h

/-- Everything a step can do: a chain of moves, around the allocator's own four commands (RESTART, an accepted DEMAND, the
lapse timer's expiry, a lapse step), or RESET. -/
theorem exec_moves {c : Instr} (he : exec c s = .next t) :
    Moves (fun _ => True) s t
      ∨ (∃ v, Moves (fun _ => True) s v ∧ Moves (fun _ => True) (restartAll v) t)
      ∨ (∃ d v, Moves (fun _ => True) s v ∧ v.alloc.state ≠ .unconfigured
          ∧ Moves (fun _ => True) (enterRunning d v) t)
      ∨ (s.alloc.state = .running ∧ Moves (fun _ => True) (enterLapsed s) t)
      ∨ (∃ settles v, s.alloc.state = .lapsed ∧ Moves (fun _ => True) s v ∧ t = endLapseStep settles v)
      ∨ AfterReset s t := by
  rcases own_cases c with hc | rfl | rfl | rfl | rfl | rfl | ⟨b1, b0, rfl⟩
  · exact .inl (.exec hc (fun _ _ => trivial) he)
  · rcases exec_demand_moves he with h | h
    · exact .inl h
    · exact .inr (.inr (.inl h))
  · rcases exec_restart_moves he with h | h
    · exact .inl h
    · exact .inr (.inl h)
  · rcases exec_lapseTimerExpiry_moves he with h | h
    · exact .inl (by rw [h]; exact .refl s)
    · exact .inr (.inr (.inr (.inl h)))
  · rcases exec_lapseStep_moves he with h | h
    · exact .inl (by rw [h]; exact .refl s)
    · exact .inr (.inr (.inr (.inr (.inl h))))
  · cases he
    exact .inr (.inr (.inr (.inr (.inr (.inl rfl)))))
  · cases he
    split
    · exact .inr (.inr (.inr (.inr (.inr (.inr ⟨b1, b0, rfl⟩)))))
    · exact .inl (.refl s)

/-- An invariant of every step: kept by every move, by what the allocator's own commands do around their moves, and true
after RESET. -/
theorem step_keeps {P : State → Prop} (move : ∀ s t, Move (fun _ => True) s t → P s → P t)
    (restart : ∀ s, P s → P (restartAll s))
    (demand : ∀ d s, s.alloc.state ≠ .unconfigured → P s → P (enterRunning d s))
    (lapse : ∀ s, s.alloc.state = .running → P s → P (enterLapsed s))
    (settle : ∀ b s, s.alloc.state = .lapsed → P s → P (endLapseStep b s))
    (reset : ∀ s t, AfterReset s t → P t)
    (queue : ∀ s rest, P s → P { s with pending := rest })
    {s t : State} (h : step s = .next t) (hs : P s) : P t := by
  have moves : ∀ {s t}, Moves (fun _ => True) s t → P s → P t := fun h hs => h.keeps move hs
  unfold step at h
  split at h
  · cases h; exact hs
  · next c rest _ =>
    have hq : P { s with pending := rest } := queue s rest hs
    rcases exec_moves h with hm | ⟨v, hv, hm⟩ | ⟨d, v, hv, hu, hm⟩ | ⟨hst, hm⟩ | ⟨b, v, hst, hv, rfl⟩ | hm
    · exact moves hm hq
    · exact moves hm (restart v (moves hv hq))
    · exact moves hm (demand d v hu (moves hv hq))
    · exact moves hm (lapse _ hst hq)
    · exact settle b v ((hv.runs (by rw [hst]; rfl)).trans hst) (moves hv hq)
    · exact reset _ t hm

end Sys2Proof.Machine
end

section
/-! PROOFS. The master ports: every step keeps them sound (O46), and a set flag stays set until its port's STATUS, a
break of its link or a reset (O11). -/

namespace Sys2Proof.Machine

/-! ## A sound alert unit -/

/-- The ALERT line follows flags and masks, and the unused positions are clear (R157, R170, R183). -/
def AlertUnit.Judged (u : AlertUnit) : Prop :=
  u.alertLine = (u.flags &&& ~~~u.masks != 0#16) ∧ u.flags.getLsbD 14 = false ∧ u.flags.getLsbD 15 = false
    ∧ u.masks.getLsbD 14 = false ∧ u.masks.getLsbD 15 = false

theorem EventFlag.bit_unused (f : EventFlag) : f.bit.getLsbD 14 = false ∧ f.bit.getLsbD 15 = false := by
  cases f <;> decide

theorem AlertUnit.Judged.raise {u : AlertUnit} (h : u.Judged) (f : EventFlag) : (u.raise f).Judged := by
  obtain ⟨-, h14, h15, hm⟩ := h
  obtain ⟨b14, b15⟩ := f.bit_unused
  exact ⟨rfl, by rw [raise_flags, BitVec.getLsbD_or, h14, b14]; rfl,
    by rw [raise_flags, BitVec.getLsbD_or, h15, b15]; rfl, hm⟩

theorem AlertUnit.Judged.clear {u : AlertUnit} (h : u.Judged) : u.clear.Judged :=
  ⟨rfl, show (0#16).getLsbD 14 = false by decide, show (0#16).getLsbD 15 = false by decide, h.2.2.2⟩

theorem AlertUnit.Judged.recordFault {u : AlertUnit} (h : u.Judged) (k : LinkFault) : (u.recordFault k).Judged :=
  AlertUnit.Judged.raise (u := { u with lastFault := some k }) h .linkFault

theorem AlertUnit.Judged.configure {u : AlertUnit} (h : u.Judged) {masks : Half} (mirror : Bool)
    (h14 : masks.getLsbD 14 = false) (h15 : masks.getLsbD 15 = false) : (u.configure masks mirror).Judged :=
  ⟨rfl, h.2.1, h.2.2.1, h14, h15⟩

/-! ## A sound port -/

theorem MasterPort.sound_iff (m : MasterPort) : m.sound = true ↔
    m.rxQueue.length ≤ 4 ∧ m.replyQueue.length ≤ 4 ∧ m.holdoff = decide (m.rxQueue.length = 4)
      ∧ m.waitingForRoom = (!m.rxQueue.isEmpty && decide (m.replyQueue.length = 4)) ∧ m.alert.Judged := by
  simp [MasterPort.sound, AlertUnit.Judged, and_assoc]

/-- A port whose lines have been judged anew is sound when its queues keep their sizes (R159, R180). -/
theorem MasterPort.judge_sound {m : MasterPort} (hrx : m.rxQueue.length ≤ 4) (hre : m.replyQueue.length ≤ 4)
    (ha : m.alert.Judged) : m.judge.sound = true := by
  have full : ∀ {n : Nat}, n ≤ 4 → decide (4 ≤ n) = decide (n = 4) := fun h => decide_eq_decide.mpr (by omega)
  refine (MasterPort.sound_iff _).mpr ⟨hrx, hre, full hrx, ?_, ha⟩
  simp only [MasterPort.judge, full hre]

/-- The soundness of a port rests on its queues, its lines and its alert unit alone. -/
theorem MasterPort.sound_congr {m m' : MasterPort} (h : m.sound = true) (h1 : m'.rxQueue = m.rxQueue) (h2 : m'.replyQueue = m.replyQueue)
    (h3 : m'.holdoff = m.holdoff) (h4 : m'.waitingForRoom = m.waitingForRoom) (ha : m.alert.Judged → m'.alert.Judged) :
    m'.sound = true := by
  obtain ⟨a, b, c, d, e⟩ := (MasterPort.sound_iff m).mp h
  exact (MasterPort.sound_iff m').mpr ⟨by rwa [h1], by rwa [h2], by rwa [h3, h1], by rwa [h4, h1, h2], ha e⟩

theorem MasterPort.arbitrate_sound {m : MasterPort} (h : m.sound = true) : m.arbitrate.sound = true := by
  obtain ⟨hrx, hre, -, -, ha⟩ := (MasterPort.sound_iff m).mp h
  obtain e | ⟨r, rest, -, hq, e⟩ | ⟨rec, -, -, -, e⟩ := m.arbitrate_cases <;> rw [e]
  · exact h
  · refine MasterPort.judge_sound hrx ?_ ha
    rw [hq, List.length_cons] at hre
    exact Nat.le_of_succ_le hre
  · exact MasterPort.sound_congr h rfl rfl rfl rfl id

/-- Nothing that can happen to a port makes it unsound. -/
theorem PortAct.sound {k : Prop} {m m' : MasterPort} (h : PortAct k m m') (hs : m.sound = true) : m'.sound = true := by
  have freed : ∀ tx, ({ m with tx := tx } : MasterPort).sound = true := fun tx =>
    MasterPort.sound_congr hs rfl rfl rfl rfl id
  obtain ⟨hrx, hre, -, -, ha⟩ := (MasterPort.sound_iff m).mp hs
  cases h with
  | receiver | linkUp => exact MasterPort.sound_congr hs rfl rfl rfl rfl id
  | raise f => exact MasterPort.sound_congr hs rfl rfl rfl rfl (fun h => h.raise f)
  | fault k => exact MasterPort.sound_congr hs rfl rfl rfl rfl (fun h => h.recordFault k)
  | clear => exact MasterPort.sound_congr hs rfl rfl rfl rfl (fun h => h.clear)
  | settings masks b h1 h2 => exact MasterPort.sound_congr hs rfl rfl rfl rfl (fun h => h.configure b h1 h2)
  | enqueue f hroom => exact MasterPort.judge_sound (by rw [List.length_append]; exact hroom) hre ha
  | dequeue => exact MasterPort.judge_sound (by rw [List.length_tail]; omega) hre ha
  | reply f _ hroom =>
    exact MasterPort.arbitrate_sound (MasterPort.judge_sound hrx (by rw [List.length_append]; exact hroom) ha)
  | arbitrate => exact MasterPort.arbitrate_sound hs
  | frameSent =>
    rcases m.frameSent_cases with e | e | e <;> rw [e]
    · exact hs
    · exact freed _
    · exact MasterPort.arbitrate_sound (freed _)
  | breakEnded =>
    rcases m.breakEnded_cases with e | e <;> rw [e]
    · exact hs
    · exact MasterPort.arbitrate_sound (freed _)
  | mirror r =>
    unfold MasterPort.mirrorHandoff
    split
    · exact MasterPort.sound_congr hs rfl rfl rfl rfl id
    · exact hs
  | linkBroken =>
    have judged : (({ m with
        link := .broken, receiver := .idle, rxQueue := [], replyQueue := [], mirrorSlot := none
        alert := m.alert.clear.recordFault .brk } : MasterPort).judge).sound = true :=
      MasterPort.judge_sound (Nat.zero_le 4) (Nat.zero_le 4) (ha.clear.recordFault .brk)
    unfold MasterPort.linkBroken
    obtain e | e | e := MasterPort.cutOff_cases _ <;> rw [e]
    · exact judged
    · exact MasterPort.sound_congr judged rfl rfl rfl rfl id
    · exact MasterPort.sound_congr judged rfl rfl rfl rfl id

theorem portsSound_iff (s : State) : s.portsSound = true ↔ ∀ p, (s.master p).sound = true := by
  rw [State.portsSound, Bool.and_eq_true]
  exact ⟨fun h p => master_cases (P := fun m => m.sound = true) s h.1 h.2 p, fun h => ⟨h .demand, h .stability⟩⟩

theorem Move.portsSound {own : MasterId → Prop} {s t : State} (h : Move own s t) (hs : s.portsSound = true) :
    t.portsSound = true := by
  rw [portsSound_iff] at hs ⊢
  intro p
  rcases h.master_cases p with e | ha
  · rw [e]; exact hs p
  · exact ha.sound (hs p)

/-- A state with the same ports is as sound at them. -/
theorem portsSound_congr {s t : State} (h : ∀ p, t.master p = s.master p) (hs : s.portsSound = true) :
    t.portsSound = true := by
  rw [portsSound_iff] at hs ⊢
  intro p; rw [h p]; exact hs p

theorem MasterPort.sendBreak_sound {m : MasterPort} (h : m.sound = true) : m.sendBreak.sound = true := by
  unfold MasterPort.sendBreak
  split <;> exact MasterPort.sound_congr h rfl rfl rfl rfl id

theorem AfterReset.portsSound {s t : State} (h : AfterReset s t) : t.portsSound = true := by
  rcases h with rfl | ⟨_, _, rfl⟩
  · show (MasterPort.powerOn.sound && MasterPort.powerOn.sound) = true
    decide
  · show (({ MasterPort.powerOn with tx := .breaking } : MasterPort).sound
      && ({ MasterPort.powerOn with tx := .breaking } : MasterPort).sound) = true
    decide

/-- Settles O46, move by move (`PortAct.sound`). -/
theorem everyStepKeepsTheMasterPortsSound : Obligations.EveryStepKeepsTheMasterPortsSound := by
  intro s t hs h
  refine step_keeps (P := fun s => s.portsSound = true) (fun _ _ hm => hm.portsSound) (fun s hs => ?_)
    (fun d s _ hs => portsSound_congr (enterRunning_master d s) hs)
    (fun s _ hs => portsSound_congr (fun p => by cases p <;> rfl) hs)
    (fun b s _ hs => portsSound_congr (fun p => by cases p <;> rfl) hs)
    (fun _ _ hr => hr.portsSound) (fun s _ hs => portsSound_congr (fun p => by cases p <;> rfl) hs) h hs
  rw [State.portsSound, Bool.and_eq_true] at hs ⊢
  exact ⟨MasterPort.sendBreak_sound hs.1, MasterPort.sendBreak_sound hs.2⟩

/-! ## Flags -/

/-- Without the port's own STATUS and the break of its link, no act at a port lets a flag go (R168). -/
theorem PortAct.isSet {k : Prop} {m m' : MasterPort} (h : PortAct k m m') (hk : ¬ k) {f : EventFlag}
    (hf : m.alert.isSet f = true) : m'.alert.isSet f = true := by
  cases h with
  | receiver | linkUp | enqueue => exact hf
  | settings => exact hf
  | raise g => exact AlertUnit.isSet_raise_of_isSet hf
  | fault k => exact AlertUnit.isSet_raise_of_isSet (u := { m.alert with lastFault := some k }) hf
  | frameSent => rcases m.frameSent_cases with e | e | e <;> simp [e, hf]
  | breakEnded => rcases m.breakEnded_cases with e | e <;> simp [e, hf]
  | mirror r => simpa using hf
  | arbitrate => simpa using hf
  | dequeue h => exact absurd h hk
  | reply _ h => exact absurd h hk
  | clear h => exact absurd h hk
  | linkBroken h => exact absurd h hk

theorem Moves.isSet {own : MasterId → Prop} {s t : State} (h : Moves own s t) {p : MasterId} (hp : ¬ own p)
    {f : EventFlag} : (s.master p).alert.isSet f = true → (t.master p).alert.isSet f = true :=
  h.port_keeps (P := fun m => m.alert.isSet f = true) fun _ _ ha => ha.isSet hp

@[simp] theorem answered_alert (p q : MasterId) (f : Frame) (payload : List Byte) (s : State) :
    ((answered q f payload s).master p).alert = (s.master p).alert := by
  cases p <;> cases q <;> simp [answered]

theorem restartAll_alert (s : State) (p : MasterId) : ((restartAll s).master p).alert = (s.master p).alert := by
  cases p <;> simp [restartAll]

section Flags

variable {s : State} {p : MasterId}
  (hin : ∀ ms ∈ s.inside, AllocMoment.event (.request p) ∉ ms ∧ .event (.masterLinkBreak p) ∉ ms)

include hin

/-- An allocation inside which neither a request of port `p` nor a break of its link falls is made of moves that are not
that port's own. -/
theorem allocateWith_movesOfOthers (replying : Option MasterId) (inp : AllocInput) {u : State}
    (hu : u.alloc.state.stationary = false) (hi : u.inside = s.inside) :
    Moves (fun q => q ≠ p) u (allocateWith replying inp u).2 := by
  refine .allocateWith replying inp hu fun ms hms q _ he => ?_
  rintro rfl
  rw [hi] at hms
  exact he.elim (hin ms hms).1 (hin ms hms).2

/-- No owner but that of the port's own STATUS lets a flag of the port go. -/
theorem ownerOf_isSet {c : Instr} (hc : c ≠ .status p) {u : State} (hi : u.inside = s.inside) (f : Frame)
    {g : EventFlag} (hg : (u.master p).alert.isSet g = true) :
    ((ownerOf c f u).2.master p).alert.isSet g = true := by
  rcases own_cases c with hown | rfl | rfl | rfl | rfl | rfl | ⟨_, _, rfl⟩
  · exact (Moves.ownerOf (own := fun q => q ≠ p) hown (fun q hq => by rintro rfl; exact hc hq) f).isSet (by simp) hg
  · simp only [ownerOf, onDemandLink, demandOwner]
    split
    · exact hg
    · split
      · exact hg
      · refine (allocateWith_movesOfOthers hin _ _ (enterRunning_stationary _ _) ?_).isSet (by simp) ?_
        · rw [← hi]; unfold enterRunning; by_cases h : u.alloc.state = .lapsed <;> simp [h, lapseRemoval]
        · rw [enterRunning_master]; exact hg
  · simp only [ownerOf, onDemandLink, restartOwner, restartAll_alert]
    exact hg
  all_goals exact hg

/-- No event row but the break of the port's own link lets a flag of the port go. -/
theorem eventOf_isSet {c : Instr} (hc : c ≠ .masterLinkBreak p) {g : EventFlag}
    (hg : (s.master p).alert.isSet g = true) : ((eventOf c s).master p).alert.isSet g = true := by
  rcases own_cases c with hown | rfl | rfl | rfl | rfl | rfl | ⟨_, _, rfl⟩
  · exact (Moves.eventOf (own := fun q => q ≠ p) hown fun q hq => by rintro rfl; exact hc hq).isSet (by simp) hg
  · exact hg
  · exact hg
  · simp only [eventOf]
    split
    · rw [master_raiseBoth]
      refine AlertUnit.isSet_raise_of_isSet ?_
      cases p <;> exact hg
    · exact hg
  · simp only [eventOf]
    split
    · next hst _ _ =>
      have h := (allocateWith_movesOfOthers hin none (lapseInput s) (by rw [hst]; rfl) rfl).isSet (by simp) hg
      cases p <;> exact h
    · exact hg
  all_goals exact hg

end Flags

/-- Settles O11: a taking and a reply leave the flags, and what acts between them is made of moves that keep them. -/
theorem flagsStayUntilStatusBreakOrReset : Obligations.FlagsStayUntilStatusBreakOrReset := by
  intro c s t p g he hg hstatus hbreak hassert hrelease hin
  rcases exec_cases c s with e | ⟨q, f, -, -, -, e⟩ | ⟨-, -, e⟩ | ⟨rfl, -⟩ | ⟨b1, b0, rfl, -⟩
  · cases he.symm.trans e; exact hg
  · cases he.symm.trans e
    rw [answered_alert]
    exact ownerOf_isSet hin hstatus (taken_inside q s) f (by rwa [taken_alert])
  · cases he.symm.trans e
    exact eventOf_isSet hin hbreak hg
  · exact absurd rfl hassert
  · exact absurd rfl (hrelease b1 b0)

end Sys2Proof.Machine
end

section
/-! PROOFS. The claim table: every step keeps it sound (O16), and a sound table holds at most 16 entries. -/

namespace Sys2Proof.Machine

/-! ## Keys -/

/-- The claim key of an entry (R2). -/
def ClaimEntry.key (e : ClaimEntry) : Source × ClaimAxle × ClaimKind :=
  (e.source, e.axle, e.kind)

theorem ClaimEntry.sameKey_eq_false_iff (a b : ClaimEntry) : a.sameKey b = false ↔ a.key ≠ b.key := by
  simp [ClaimEntry.sameKey, ClaimEntry.key]

theorem ClaimEntry.hasKey_iff (e d : ClaimEntry) : d.hasKey e.source e.axle e.kind = true ↔ d.key = e.key := by
  simp [ClaimEntry.hasKey, ClaimEntry.key, and_assoc]

/-- One entry for each key: the keys of the table are distinct. -/
theorem pairwise_sameKey_iff (t : List ClaimEntry) :
    (t.Pairwise fun a b => a.sameKey b = false) ↔ (t.map ClaimEntry.key).Nodup := by
  simp only [List.Nodup, List.pairwise_map, ClaimEntry.sameKey_eq_false_iff]

/-- A sound table: legal entries, distinct keys, at most 12 entries of the masters, under a sound configuration. -/
theorem tableSound_iff (s : State) : s.tableSound = true ↔ s.config.sound = true
    ∧ (∀ e ∈ s.table, e.legal s.config = true) ∧ (s.table.map ClaimEntry.key).Nodup ∧ masterCount s.table ≤ 12 := by
  simp only [State.tableSound, Bool.and_eq_true, List.all_eq_true, decide_eq_true_eq, pairwise_sameKey_iff,
    ClaimEntry.legal, and_assoc]

/-! ## The acts on the table -/

theorem removeClaim_sublist (t : List ClaimEntry) (src : Source) (axle : ClaimAxle) (kind : ClaimKind) :
    (removeClaim t src axle kind).Sublist t := List.filter_sublist

theorem masterCount_append (t d : List ClaimEntry) : masterCount (t ++ d) = masterCount t + masterCount d :=
  List.countP_append

/-- Removing the entry that stands under a master's key frees a master place. -/
theorem masterCount_removeClaim_lt {t : List ClaimEntry} {e : ClaimEntry} (hm : e.source.isMaster = true)
    (h : (findClaim t e.source e.axle e.kind).isSome = true) :
    masterCount (removeClaim t e.source e.axle e.kind) < masterCount t := by
  obtain ⟨d, hd, hkey⟩ := List.find?_isSome.mp h
  have hsrc : d.source = e.source := congrArg Prod.fst ((ClaimEntry.hasKey_iff e d).mp hkey)
  have hpos : 0 < masterCount (t.filter fun x => x.hasKey e.source e.axle e.kind) :=
    List.countP_pos_iff.mpr ⟨d, List.mem_filter.mpr ⟨hd, hkey⟩, by rw [hsrc]; exact hm⟩
  have hsplit : masterCount t = masterCount (t.filter fun x => x.hasKey e.source e.axle e.kind)
      + masterCount (removeClaim t e.source e.axle e.kind) := List.countP_eq_countP_filter_add t _ _
  omega

theorem masterCount_storeClaim {t : List ClaimEntry} {e : ClaimEntry} (ht : masterCount t ≤ 12)
    (h : (findClaim t e.source e.axle e.kind).isSome ∨ e.source.isMaster = false ∨ masterCount t < 12) :
    masterCount (storeClaim t e) ≤ 12 := by
  have hle : masterCount (removeClaim t e.source e.axle e.kind) ≤ masterCount t :=
    (removeClaim_sublist _ _ _ _).countP_le
  rw [storeClaim, masterCount_append]
  by_cases hm : e.source.isMaster = true
  · have hone : masterCount [e] = 1 := by simp [masterCount, hm]
    rcases h with h | h | h
    · have := masterCount_removeClaim_lt hm h; omega
    · rw [hm] at h; cases h
    · omega
  · have hzero : masterCount [e] = 0 := by simp [masterCount, hm]
    omega

/-- A storage leaves each key with one entry (R2, R3). -/
theorem nodup_storeClaim {t : List ClaimEntry} (e : ClaimEntry) (ht : (t.map ClaimEntry.key).Nodup) :
    ((storeClaim t e).map ClaimEntry.key).Nodup := by
  rw [storeClaim, List.map_append, List.nodup_append]
  refine ⟨ht.sublist ((removeClaim_sublist _ _ _ _).map _), by simp, ?_⟩
  rintro k hk _ he rfl
  obtain ⟨d, hd, rfl⟩ := List.mem_map.mp hk
  have hne : d.hasKey e.source e.axle e.kind = false := by simpa using (List.mem_filter.mp hd).2
  have heq : d.key = e.key := by simpa using he
  rw [(ClaimEntry.hasKey_iff e d).mpr heq] at hne
  cases hne

/-- An entry that keeps its key, its value and its tag is as legal, with a legal lifetime. -/
theorem ClaimEntry.legal_congr {c : ConfigStore} {e d : ClaimEntry} (hs : d.source = e.source) (ha : d.axle = e.axle)
    (hk : d.kind = e.kind) (hv : d.value = e.value) (hl : d.lifetimeLegal = true) (hi : d.inverterLegal = true)
    (h : e.legal c = true) : d.legal c = true := by
  obtain ⟨h1, h2, -, -⟩ := (ClaimEntry.legal_iff c e).mp h
  refine (ClaimEntry.legal_iff c d).mpr ⟨?_, ?_, hl, hi⟩
  · unfold ClaimEntry.keyLegal at h1 ⊢; rwa [hs, ha, hk]
  · unfold ClaimEntry.valueLegal at h2 ⊢; rwa [ha, hk, hv]

theorem isMaster_source (p : MasterId) : p.source.isMaster = true := by
  cases p <;> rfl

/-- An orphaned entry of a master is legal: its lifetime lies from 1 to the orphan lifetime (R22). -/
theorem ClaimEntry.orphan_legal {c : ConfigStore} {e : ClaimEntry} {limit : Nat} (hlimit : 1 ≤ limit ∧ limit ≤ 250)
    (hm : e.source.isMaster = true) (h : e.legal c = true) : (e.orphan limit).legal c = true := by
  obtain ⟨-, -, h3, -⟩ := (ClaimEntry.legal_iff c e).mp h
  refine ClaimEntry.legal_congr (e := e) rfl rfl rfl rfl ?_ ?_ h
  · rcases hl : e.lifetime with _ | n
    · simp only [ClaimEntry.lifetimeLegal, ClaimEntry.orphan, hl, Option.getD_none, decide_eq_true_eq]
      omega
    · simp only [ClaimEntry.lifetimeLegal, hl, decide_eq_true_eq] at h3
      simp only [ClaimEntry.lifetimeLegal, ClaimEntry.orphan, hl, Option.getD_some, decide_eq_true_eq]
      omega
  · simp [ClaimEntry.inverterLegal, ClaimEntry.orphan, hm]

/-- What is left of an entry after an allocation: itself, or itself with one allocation less to live (R20). -/
theorem ClaimEntry.age_cases {e d : ClaimEntry} (h : e.age = some d) :
    (e.lifetime = none ∧ d = e) ∨ ∃ n, 2 ≤ n ∧ e.lifetime = some n ∧ d = { e with lifetime := some (n - 1) } := by
  unfold ClaimEntry.age at h
  split at h
  · next hl => exact .inl ⟨hl, (Option.some.inj h).symm⟩
  · next n hl =>
    split at h
    · cases h
    · exact .inr ⟨n, by omega, hl, (Option.some.inj h).symm⟩

theorem ClaimEntry.age_key {e d : ClaimEntry} (h : e.age = some d) : d.key = e.key := by
  rcases ClaimEntry.age_cases h with ⟨-, rfl⟩ | ⟨_, -, -, rfl⟩ <;> rfl

theorem ClaimEntry.age_legal {c : ConfigStore} {e d : ClaimEntry} (h : e.age = some d) (he : e.legal c = true) :
    d.legal c = true := by
  rcases ClaimEntry.age_cases h with ⟨-, rfl⟩ | ⟨n, hn, hl, rfl⟩
  · exact he
  · obtain ⟨-, -, h3, h4⟩ := (ClaimEntry.legal_iff c e).mp he
    refine ClaimEntry.legal_congr (e := e) rfl rfl rfl rfl ?_ ?_ he
    · simp only [ClaimEntry.lifetimeLegal, hl, decide_eq_true_eq] at h3
      simp only [ClaimEntry.lifetimeLegal, decide_eq_true_eq]
      omega
    · simpa [ClaimEntry.inverterLegal, hl] using h4

/-- Aging keeps the keys of the entries that stay, in their order. -/
theorem ageClaims_keys (t : List ClaimEntry) : ((ageClaims t).map ClaimEntry.key).Sublist (t.map ClaimEntry.key) := by
  induction t with
  | nil => exact .slnil
  | cons e t ih =>
    rcases h : e.age with _ | d
    · simpa [ageClaims, h] using ih.cons e.key
    · have hk := ClaimEntry.age_key h
      simpa [ageClaims, h, hk] using ih.cons_cons e.key

theorem mem_markGoverning {t : List ClaimEntry} {c : ConfigStore} {d : ClaimEntry} (h : d ∈ markGoverning t c) :
    ∃ e ∈ t, ∃ g, d = { e with governing := g } := by
  obtain ⟨i, hi, rfl⟩ := List.mem_mapIdx.mp h
  exact ⟨t[i], List.getElem_mem hi, _, rfl⟩

/-- The marking keeps every key. -/
theorem markGoverning_keys (t : List ClaimEntry) (c : ConfigStore) :
    (markGoverning t c).map ClaimEntry.key = t.map ClaimEntry.key := by
  refine List.ext_getElem (by simp [markGoverning]) fun i h1 h2 => ?_
  simp [markGoverning, ClaimEntry.key]

theorem masterCount_eq_keys (t : List ClaimEntry) :
    masterCount t = (t.map ClaimEntry.key).countP fun k => k.1.isMaster := by
  rw [List.countP_map]; rfl

/-- No act on the table makes it unsound. -/
theorem TableAct.sound {c : ConfigStore} {t t' : List ClaimEntry} (h : TableAct c t t') (hc : c.sound = true)
    (hl : ∀ e ∈ t, e.legal c = true) (hk : (t.map ClaimEntry.key).Nodup) (hm : masterCount t ≤ 12) :
    (∀ e ∈ t', e.legal c = true) ∧ (t'.map ClaimEntry.key).Nodup ∧ masterCount t' ≤ 12 := by
  cases h with
  | remove keep =>
    have hsub : (t.filter keep).Sublist t := List.filter_sublist
    exact ⟨fun e he => hl e (hsub.subset he), hk.sublist (hsub.map _), hsub.countP_le.trans hm⟩
  | store e hlegal hroom =>
    refine ⟨fun d hd => ?_, nodup_storeClaim e hk, masterCount_storeClaim hm hroom⟩
    rcases mem_storeClaim.mp hd with rfl | ⟨hd, -⟩
    · exact hlegal hc
    · exact hl d hd
  | orphan p =>
    have limit : 1 ≤ c.timing.orphanLifetime ∧ c.timing.orphanLifetime ≤ 250 := by
      have ht := ((ConfigStore.sound_iff c).mp hc).2.2.1
      simp only [timingValid, Bool.and_eq_true, decide_eq_true_eq] at ht
      exact ht.2
    have keys : (t.map fun e => if e.source = p.source then e.orphan c.timing.orphanLifetime else e).map ClaimEntry.key
        = t.map ClaimEntry.key := by
      rw [List.map_map]
      refine List.map_congr_left fun e _ => ?_
      simp only [Function.comp]
      split <;> rfl
    refine ⟨fun d hd => ?_, by rwa [keys], by rwa [masterCount_eq_keys, keys, ← masterCount_eq_keys]⟩
    obtain ⟨e, he, rfl⟩ := List.mem_map.mp hd
    split
    · next hs => exact ClaimEntry.orphan_legal limit (by rw [hs]; exact isMaster_source p) (hl e he)
    · exact hl e he
  | serve =>
    have keys : ((ageClaims (markGoverning t c)).map ClaimEntry.key).Sublist (t.map ClaimEntry.key) :=
      markGoverning_keys t c ▸ ageClaims_keys (markGoverning t c)
    refine ⟨fun d hd => ?_, hk.sublist keys, ?_⟩
    · obtain ⟨e', he', hage⟩ := List.mem_filterMap.mp hd
      obtain ⟨e, he, g, rfl⟩ := mem_markGoverning he'
      exact ClaimEntry.age_legal hage (hl e he)
    · rw [masterCount_eq_keys] at hm ⊢
      exact keys.countP_le.trans hm

theorem ClaimEntry.legal_of_envelope {c c' : ConfigStore} (h : c'.envelope = c.envelope) (e : ClaimEntry) :
    e.legal c' = e.legal c := by
  simp only [ClaimEntry.legal, ClaimEntry.valueLegal, h]

theorem tableSound_congr {s t : State} (hc : t.config = s.config) (ht : t.table = s.table) (h : s.tableSound = true) :
    t.tableSound = true := by
  rw [tableSound_iff] at h ⊢
  rwa [hc, ht]

/-- No move makes the claim table unsound: an ENVELOPE, which moves the edges, is taken with an empty table (R150). -/
theorem Move.tableSound {own : MasterId → Prop} {s t : State} (h : Move own s t) (hs : s.tableSound = true) :
    t.tableSound = true := by
  cases h with
  | port p => exact tableSound_congr (setMaster_config s p _) (setMaster_table s p _) hs
  | axle a => exact tableSound_congr (setAxle_config s a _) (setAxle_table s a _) hs
  | share av load speed =>
    exact tableSound_congr (shareAct_config s av load speed) (shareAct_table s av load speed) hs
  | bands | holds | map | record | inside => exact tableSound_congr (s := s) rfl rfl hs
  | table h =>
    obtain ⟨hc, hl, hk, hm⟩ := (tableSound_iff s).mp hs
    exact (tableSound_iff _).mpr ⟨hc, h.sound hc hl hk hm⟩
  | config c st hc he =>
    obtain ⟨hs', hl, hk, hm⟩ := (tableSound_iff s).mp hs
    refine (tableSound_iff _).mpr ⟨hc hs', ?_, hk, hm⟩
    rcases he with he | he
    · intro e hmem; rw [ClaimEntry.legal_of_envelope he]; exact hl e hmem
    · intro e hmem; simp [he] at hmem

theorem enterRunning_table (d : DemandFields) (s : State) : (enterRunning d s).table = s.table := by
  unfold enterRunning; by_cases h : s.alloc.state = .lapsed <;> simp [h, lapseRemoval]

theorem enterRunning_config (d : DemandFields) (s : State) : (enterRunning d s).config = s.config := by
  unfold enterRunning; by_cases h : s.alloc.state = .lapsed <;> simp [h, lapseRemoval]

/-- An empty table under a sound configuration is sound. -/
theorem tableSound_nil {s : State} (ht : s.table = []) (hc : s.config.sound = true) : s.tableSound = true := by
  rw [tableSound_iff, ht]
  exact ⟨hc, by simp, by simp, by decide⟩

theorem powerOn_config_sound : ConfigStore.powerOn.sound = true := by decide

theorem AfterReset.tableSound {s t : State} (h : AfterReset s t) : t.tableSound = true := by
  rcases h with rfl | ⟨_, _, rfl⟩ <;> exact tableSound_nil rfl powerOn_config_sound

theorem step_keeps_tableSound {s t : State} (hs : s.tableSound = true) (h : step s = .next t) : t.tableSound = true :=
  step_keeps (P := fun s => s.tableSound = true) (fun _ _ hm => hm.tableSound)
    (fun s hs => tableSound_nil rfl ((tableSound_iff s).mp hs).1)
    (fun d s _ hs => tableSound_congr (enterRunning_config d s) (enterRunning_table d s) hs)
    (fun s _ hs => tableSound_congr (s := s) rfl rfl hs) (fun _ s _ hs => tableSound_congr (s := s) rfl rfl hs)
    (fun _ _ hr => hr.tableSound) (fun s _ hs => tableSound_congr (s := s) rfl rfl hs) h hs

/-! ## The size of the table -/

/-- The keys of the inverters (R2). -/
def inverterKeys : List (Source × ClaimAxle × ClaimKind) :=
  [(.finv, .front, .ceiling), (.finv, .front, .floor), (.rinv, .rear, .ceiling), (.rinv, .rear, .floor)]

theorem ClaimEntry.key_mem_inverterKeys {e : ClaimEntry} (h : e.keyLegal = true) (hm : e.source.isMaster = false) :
    e.key ∈ inverterKeys := by
  obtain ⟨source, axle, kind, _, _, _, _, _, _⟩ := e
  cases source <;> cases hm
  all_goals
    simp only [ClaimEntry.keyLegal, Bool.and_eq_true, decide_eq_true_eq, Bool.not_eq_true', decide_eq_false_iff_not] at h
    obtain ⟨rfl, hk⟩ := h
    cases kind <;> simp [ClaimEntry.key, inverterKeys] at hk ⊢

/-- A sound table holds at most 12 entries of the masters and one for each of the four keys of the inverters (R4). -/
theorem table_length_le {s : State} (h : s.tableSound = true) : s.table.length ≤ 16 := by
  obtain ⟨-, hl, hk, hm⟩ := (tableSound_iff s).mp h
  have split := List.length_eq_countP_add_countP (fun e : ClaimEntry => e.source.isMaster) (l := s.table)
  have inverters : s.table.countP (fun e => decide ¬ (e.source.isMaster = true)) ≤ inverterKeys.length := by
    rw [List.countP_eq_length_filter, ← List.length_map (f := ClaimEntry.key)]
    refine ((hk.sublist (List.filter_sublist.map _)).subperm fun k hmem => ?_).length_le
    obtain ⟨e, he, rfl⟩ := List.mem_map.mp hmem
    obtain ⟨he, hsrc⟩ := List.mem_filter.mp he
    exact ClaimEntry.key_mem_inverterKeys ((ClaimEntry.legal_iff _ e).mp (hl e he)).1 (by simpa using hsrc)
  have four : inverterKeys.length = 4 := rfl
  rw [masterCount] at hm
  omega

/-- Settles O16, act by act on the table (`TableAct.sound`); its size is `table_length_le`. -/
theorem everyStepKeepsTheClaimTableSound : Obligations.EveryStepKeepsTheClaimTableSound :=
  ⟨fun _ _ hs h => step_keeps_tableSound hs h, fun _ h => table_length_le h⟩

end Sys2Proof.Machine
end

section
/-! PROOFS. The hold stack, the shares and the allocator's timers: every step keeps them sound (O27). -/

namespace Sys2Proof.Machine

/-! ## The hold stack -/

/-- A sound hold stack under an allocator state (R51, R52, R62). -/
def StackSound (st : AllocState) (hs : List HoldRecord) : Prop :=
  (∀ h ∈ hs, h.sound = true) ∧ masterHolds hs ≤ 4 ∧ lapseHolds hs = if st = .lapsed then 1 else 0

theorem stackSound_iff (s : State) : s.stackSound = true ↔ StackSound s.alloc.state s.holds := by
  simp only [State.stackSound, StackSound, Bool.and_eq_true, List.all_eq_true, decide_eq_true_eq, and_assoc]

theorem masterHolds_append (a b : List HoldRecord) : masterHolds (a ++ b) = masterHolds a + masterHolds b :=
  List.countP_append

theorem lapseHolds_append (a b : List HoldRecord) : lapseHolds (a ++ b) = lapseHolds a + lapseHolds b :=
  List.countP_append

theorem masterHolds_singleton {h : HoldRecord} (ho : h.origin = .master) : masterHolds [h] = 1 := by
  simp [masterHolds, ho]

theorem lapseHolds_singleton_master {h : HoldRecord} (ho : h.origin = .master) : lapseHolds [h] = 0 := by
  simp [lapseHolds, ho]

/-- Whichever MASTER records go, the LAPSE records stay. -/
theorem lapseHolds_filter {keep : HoldRecord → Bool} (hkeep : ∀ h : HoldRecord, h.origin = .lapse → keep h = true)
    (hs : List HoldRecord) : lapseHolds (hs.filter keep) = lapseHolds hs := by
  rw [lapseHolds, List.countP_filter]
  refine List.countP_congr fun h _ => ?_
  by_cases ho : h.origin = .lapse <;> simp [ho, hkeep h]

/-- Some records taken away leave the rest as sound, when the LAPSE records stay. -/
theorem StackSound.sublist {st : AllocState} {hs hs' : List HoldRecord} (h : StackSound st hs) (hsub : hs'.Sublist hs)
    (hl : lapseHolds hs' = lapseHolds hs) : StackSound st hs' :=
  ⟨fun r hr => h.1 r (hsub.subset hr), hsub.countP_le.trans h.2.1, hl.trans h.2.2⟩

/-- No act of a request or a break makes the hold stack unsound. -/
theorem HoldAct.stackSound {live : Nat} {st : AllocState} {hs hs' : List HoldRecord} (h : HoldAct live hs hs')
    (hst : StackSound st hs) : StackSound st hs' := by
  cases h with
  | push r ho hr _ hroom =>
    obtain ⟨h1, -, h3⟩ := hst
    refine ⟨fun r' hr' => ?_, ?_, ?_⟩
    · rcases List.mem_append.mp hr' with hr' | hr'
      · exact h1 r' hr'
      · rw [List.mem_singleton.mp hr']; exact hr
    · rw [masterHolds_append, masterHolds_singleton ho]; exact hroom
    · rw [lapseHolds_append, lapseHolds_singleton_master ho]; exact h3
  | pop r hr ho =>
    refine hst.sublist (List.dropLast_sublist hs) ?_
    have hsplit : hs = hs.dropLast ++ [r] := (List.dropLast_append_getLast? r hr).symm
    conv_rhs => rw [hsplit]
    rw [lapseHolds_append, lapseHolds_singleton_master ho]; rfl
  | drop p =>
    exact hst.sublist List.filter_sublist (lapseHolds_filter (fun r hr => by simp [HoldRecord.heldBy, hr]) hs)

/-! ## The shares -/

/-- Every share of a state lies from 0 to 1000 (R32, R40, R51). -/
def SharesSound (s : State) : Prop :=
  s.liveShare ≤ 1000 ∧ s.lastGoverning ≤ 1000 ∧ (∀ v ∈ s.map.toList, v ≤ 1000) ∧ ∀ h ∈ s.holds, h.share ≤ 1000

theorem sharesSound_iff (s : State) : s.sharesSound = true ↔ SharesSound s := by
  simp only [State.sharesSound, SharesSound, Bool.and_eq_true, List.all_eq_true, decide_eq_true_eq, and_assoc]

theorem HoldAct.shares {live : Nat} {hs hs' : List HoldRecord} (h : HoldAct live hs hs') (hlive : live ≤ 1000)
    (hsh : ∀ r ∈ hs, r.share ≤ 1000) : ∀ r ∈ hs', r.share ≤ 1000 := by
  cases h with
  | push r _ _ hr _ =>
    intro r' hr'
    rcases List.mem_append.mp hr' with hr' | hr'
    · exact hsh r' hr'
    · rw [List.mem_singleton.mp hr']
      rcases hr with hr | hr
      · exact hr
      · rw [hr]; exact hlive
  | pop r _ _ => exact fun r' hr' => hsh r' ((List.dropLast_sublist hs).subset hr')
  | drop p => exact fun r' hr' => hsh r' (List.filter_sublist.subset hr')

/-- A cell of a map of shares is a share, and so is a cell that no map has. -/
theorem readCell_le {m : Vector Nat 64} (hm : ∀ v ∈ m.toList, v ≤ 1000) (row column : Nat) :
    readCell m row column ≤ 1000 := by
  rcases h : m[cellIndex row column]? with _ | v
  · simp [readCell, h]
  · simpa [readCell, h] using hm v (Vector.mem_toList_iff.mpr (Vector.mem_of_getElem? h))

theorem governingShare_le {s : State} (h : SharesSound s) (load : Nat) (speed : Int) :
    governingShare s load speed ≤ 1000 := by
  obtain ⟨-, -, hm, hh⟩ := h
  unfold governingShare
  split
  · next r hr => exact hh r (List.mem_of_getLast? hr)
  · exact readCell_le hm _ _

theorem shareAct_sharesSound {s : State} (h : SharesSound s) (av : Availability) (load : Nat) (speed : Int) :
    SharesSound (shareAct av load speed s) := by
  have hg := governingShare_le h load speed
  obtain ⟨hl, -, hm, hh⟩ := h
  cases av with
  | both => exact ⟨moveShare_le _ hl hg, hg, hm, hh⟩
  | frontOnly => exact ⟨le_rfl, hg, hm, hh⟩
  | rearOnly => exact ⟨Nat.zero_le _, hg, hm, hh⟩
  | neither => exact ⟨hl, hg, hm, hh⟩

/-! ## The three together -/

/-- A sound hold stack, sound shares and sound timers. -/
def AllocationSound (s : State) : Prop :=
  StackSound s.alloc.state s.holds ∧ SharesSound s ∧ s.alloc.sound = true

theorem allocationSound_iff (s : State) :
    AllocationSound s ↔ s.stackSound = true ∧ s.sharesSound = true ∧ s.alloc.sound = true := by
  rw [AllocationSound, stackSound_iff, sharesSound_iff]

theorem AllocationSound.congr {s t : State} (h : AllocationSound s) (ha : t.alloc = s.alloc) (hh : t.holds = s.holds)
    (hl : t.liveShare = s.liveShare) (hg : t.lastGoverning = s.lastGoverning) (hm : t.map = s.map) :
    AllocationSound t := by
  rwa [AllocationSound, SharesSound, ha, hh, hl, hg, hm]

/-- The allocator's timers rest in UNCONFIGURED and READY. -/
theorem Allocator.sound_of_stationary {al al' : Allocator} (h : al.sound = true) (hst : al.state.stationary = true)
    (hst' : al'.state.stationary = true) (h1 : al'.settled = al.settled) (h2 : al'.lapseTimer = al.lapseTimer)
    (h3 : al'.lapseStepTimer = al.lapseStepTimer) : al'.sound = true := by
  unfold Allocator.sound at h ⊢
  rw [h1, h2, h3]
  cases hs : al.state <;> cases hs' : al'.state <;> simp_all [AllocState.stationary]

theorem Move.allocationSound {own : MasterId → Prop} {s t : State} (h : Move own s t) (hs : AllocationSound s) :
    AllocationSound t := by
  cases h with
  | port p => exact hs.congr (by simp) (by simp) (by simp) (by simp) (by simp)
  | axle a => exact hs.congr (by simp) (by simp) (by simp) (by simp) (by simp)
  | table | bands | inside => exact hs.congr rfl rfl rfl rfl rfl
  | holds h =>
    obtain ⟨h1, ⟨hl, hg, hm, hh⟩, h3⟩ := hs
    exact ⟨h.stackSound h1, ⟨hl, hg, hm, h.shares hl hh⟩, h3⟩
  | share av load speed =>
    obtain ⟨h1, h2, h3⟩ := hs
    exact ⟨by simpa using h1, shareAct_sharesSound h2 av load speed, by simpa using h3⟩
  | map m hm =>
    obtain ⟨h1, ⟨hl, hg, hmap, hh⟩, h3⟩ := hs
    exact ⟨h1, ⟨hl, hg, hm hmap, hh⟩, h3⟩
  | config c st _ _ hst =>
    obtain ⟨h1, h2, h3⟩ := hs
    rcases hst with ⟨-, rfl⟩ | ⟨hold, hnew⟩
    · exact ⟨h1, h2, h3⟩
    · refine ⟨⟨h1.1, h1.2.1, ?_⟩, h2, Allocator.sound_of_stationary h3 hold hnew rfl rfl rfl⟩
      rw [h1.2.2]
      cases hs : s.alloc.state <;> cases st <;> simp_all [AllocState.stationary]
  | record al h1 h2 h3 h4 =>
    obtain ⟨k1, k2, k3⟩ := hs
    refine ⟨?_, k2, ?_⟩
    · show StackSound al.state s.holds
      rw [h1]; exact k1
    · show al.sound = true
      unfold Allocator.sound at k3 ⊢
      rwa [h1, h2, h3, h4]

/-! ## The allocator's own commands -/

/-- A removal of the LAPSE records leaves the MASTER records, and none of origin LAPSE (R62). -/
theorem StackSound.withoutLapse {st st' : AllocState} {hs : List HoldRecord} (h : StackSound st hs)
    (hst : st' ≠ .lapsed) : StackSound st' (hs.filter fun h => !(h.origin = .lapse)) := by
  refine ⟨fun r hr => h.1 r (List.filter_sublist.subset hr), List.filter_sublist.countP_le.trans h.2.1, ?_⟩
  rw [if_neg hst, lapseHolds, List.countP_filter, List.countP_eq_zero]
  intro r _
  cases r.origin <;> simp

theorem enterRunning_allocationSound (d : DemandFields) {s : State} (h : AllocationSound s) :
    AllocationSound (enterRunning d s) := by
  obtain ⟨h1, ⟨hl, hg, hm, hh⟩, -⟩ := h
  by_cases hst : s.alloc.state = .lapsed
  · have hholds : (enterRunning d s).holds = s.holds.filter fun h => !(h.origin = .lapse) := by
      simp [enterRunning, hst, lapseRemoval]
    refine ⟨?_, ⟨?_, ?_, ?_, ?_⟩, rfl⟩
    · rw [hholds]; exact h1.withoutLapse (by simp [enterRunning])
    · simpa [enterRunning, hst, lapseRemoval] using hl
    · simpa [enterRunning, hst, lapseRemoval] using hg
    · simpa [enterRunning, hst, lapseRemoval] using hm
    · rw [hholds]; exact fun r hr => hh r (List.filter_sublist.subset hr)
  · have hstack : StackSound .running s.holds := ⟨h1.1, h1.2.1, by rw [h1.2.2, if_neg hst]; rfl⟩
    exact ⟨by simpa [enterRunning, hst] using hstack, ⟨by simpa [enterRunning, hst] using hl,
      by simpa [enterRunning, hst] using hg, by simpa [enterRunning, hst] using hm,
      by simpa [enterRunning, hst] using hh⟩, rfl⟩

/-- The lapse push adds the one LAPSE record of a LAPSED allocator (R60). -/
theorem enterLapsed_allocationSound {s : State} (hst : s.alloc.state = .running) (h : AllocationSound s) :
    AllocationSound (enterLapsed s) := by
  obtain ⟨⟨h1, h2, h3⟩, ⟨hl, hg, hm, hh⟩, -⟩ := h
  rw [if_neg (by rw [hst]; decide)] at h3
  refine ⟨⟨fun r hr => ?_, ?_, ?_⟩, ⟨hl, hg, hm, fun r hr => ?_⟩, rfl⟩
  · rcases List.mem_append.mp hr with hr | hr
    · exact h1 r hr
    · rw [List.mem_singleton.mp hr]; rfl
  · show masterHolds (s.holds ++ [lapseRecord s.liveShare]) ≤ 4
    rw [masterHolds_append]; exact h2
  · show lapseHolds (s.holds ++ [lapseRecord s.liveShare]) = 1
    rw [lapseHolds_append, h3]; rfl
  · rcases List.mem_append.mp hr with hr | hr
    · exact hh r hr
    · rw [List.mem_singleton.mp hr]; exact hl

theorem endLapseStep_allocationSound (b : Bool) {s : State} (hst : s.alloc.state = .lapsed) (h : AllocationSound s) :
    AllocationSound (endLapseStep b s) := by
  obtain ⟨h1, h2, h3⟩ := h
  refine ⟨h1, h2, ?_⟩
  simp only [Allocator.sound, Bool.and_eq_true, decide_eq_true_eq] at h3
  obtain ⟨⟨hlapse, -⟩, -⟩ := h3
  have hstopped : s.alloc.lapseTimer = .stopped := by
    rw [hst] at hlapse
    cases ht : s.alloc.lapseTimer with
    | stopped => rfl
    | running n => rw [ht] at hlapse; cases hlapse
  cases b <;> simp [Allocator.sound, endLapseStep, hstopped, hst, Timer.isRunning]

theorem powerOn_map_le : ∀ v ∈ State.powerOn.map.toList, v ≤ 1000 := by
  intro v hv
  simp only [State.powerOn, Vector.toList_replicate] at hv
  rw [List.eq_of_mem_replicate hv]
  decide

/-- An empty stack, a live and a governing share of 500 and a resting allocator are sound. -/
theorem allocationSound_rest {s : State} (hh : s.holds = []) (hl : s.liveShare = 500) (hg : s.lastGoverning = 500)
    (hm : ∀ v ∈ s.map.toList, v ≤ 1000) (hst : s.alloc.state.stationary = true) (ha : s.alloc.sound = true) :
    AllocationSound s := by
  refine ⟨?_, ⟨?_, ?_, hm, ?_⟩, ha⟩
  · rw [hh]
    refine ⟨by simp, by decide, ?_⟩
    cases h : s.alloc.state <;> simp_all [AllocState.stationary, lapseHolds]
  · rw [hl]; decide
  · rw [hg]; decide
  · rw [hh]; simp

theorem Allocator.restart_rest (al : Allocator) : al.restart.state.stationary = true ∧ al.restart.sound = true := by
  unfold Allocator.restart
  split <;> exact ⟨rfl, rfl⟩

theorem AfterReset.allocationSound {s t : State} (h : AfterReset s t) : AllocationSound t := by
  rcases h with rfl | ⟨_, _, rfl⟩ <;> exact allocationSound_rest rfl rfl rfl powerOn_map_le rfl rfl

/-- Settles O27, move by move (`Move.allocationSound`). -/
theorem everyStepKeepsHoldsSharesAndTimersSound : Obligations.EveryStepKeepsHoldsSharesAndTimersSound := by
  intro s t h1 h2 h3 h
  refine (allocationSound_iff t).mp (step_keeps (P := AllocationSound) (fun _ _ hm => hm.allocationSound) (fun s hs => ?_)
    (fun d _ _ hs => enterRunning_allocationSound d hs) (fun _ hst hs => enterLapsed_allocationSound hst hs)
    (fun b _ hst hs => endLapseStep_allocationSound b hst hs) (fun _ _ hr => hr.allocationSound)
    (fun _ _ hs => hs.congr rfl rfl rfl rfl rfl) h ((allocationSound_iff s).mpr ⟨h1, h2, h3⟩))
  obtain ⟨hst, ha⟩ := s.alloc.restart_rest
  exact allocationSound_rest rfl rfl rfl hs.2.1.2.2.1 hst ha

end Sys2Proof.Machine
end

section
/-! PROOFS. The axle supervisors and the COMMAND records: every step keeps them sound (O53). -/

namespace Sys2Proof.Machine

/-! ## A sound axle supervisor -/

theorem AxleUnit.quiet_iff (u : AxleUnit) : u.quiet = true ↔
    u.state = .offline ∧ u.outstanding = none ∧ u.slot = none ∧ ∀ r, u.tx ≠ .sending r false := by
  rcases htx : u.tx with _ | ⟨r, b⟩ | _
  · simp [AxleUnit.quiet, htx, and_assoc]
  · cases b <;> simp [AxleUnit.quiet, htx, and_assoc]
  · simp [AxleUnit.quiet, htx, and_assoc]

/-- The conditions of a sound axle supervisor, one by one. -/
structure AxleUnit.Sound (t : Timing) (u : AxleUnit) : Prop where
  counts : u.countsSound t = true
  window : u.window.isRunning = u.outstanding.isSome
  standby : u.state.available = false → u.lastCommanded = 0 ∧ ∀ r ∈ u.slot, r.mode = .standby
  link : u.link ≠ .up → u.quiet = true ∧ ∀ r b, u.tx ≠ .sending r b
  busy : u.tx = .idle → u.slot = none

/-- Whether a COMMAND frame is in transmission. -/
def AxleUnit.sends (u : AxleUnit) : Bool :=
  match u.tx with
  | .sending _ _ => true
  | .idle => false
  | .breaking => false

theorem AxleUnit.sends_eq_false_iff (u : AxleUnit) : u.sends = false ↔ ∀ r b, u.tx ≠ .sending r b := by
  rcases htx : u.tx with _ | ⟨r, b⟩ | _ <;> simp [AxleUnit.sends, htx]

theorem AxleUnit.sound_eq (t : Timing) (u : AxleUnit) : u.sound t = (u.countsSound t
    && decide (u.window.isRunning = u.outstanding.isSome)
    && (u.state.available || (decide (u.lastCommanded = 0) && u.slot.all fun r => decide (r.mode = .standby)))
    && (decide (u.link = .up) || (u.quiet && !u.sends)) && (u.slot.isNone || decide (u.tx ≠ .idle))) := rfl

theorem AxleUnit.sound_iff (t : Timing) (u : AxleUnit) : u.sound t = true ↔ u.Sound t := by
  have busy : (u.slot.isNone || decide (u.tx ≠ .idle)) = true ↔ (u.tx = .idle → u.slot = none) := by
    simp only [Bool.or_eq_true, Option.isNone_iff_eq_none, decide_eq_true_eq]
    tauto
  have standby : (u.state.available || (decide (u.lastCommanded = 0) && u.slot.all fun r => decide (r.mode = .standby)))
      = true ↔ (u.state.available = false → u.lastCommanded = 0 ∧ ∀ r ∈ u.slot, r.mode = .standby) := by
    cases u.state.available <;> simp [Option.all_eq_true]
  have link : (decide (u.link = .up) || (u.quiet && !u.sends)) = true
      ↔ (u.link ≠ .up → u.quiet = true ∧ ∀ r b, u.tx ≠ .sending r b) := by
    rw [← AxleUnit.sends_eq_false_iff]
    simp only [Bool.or_eq_true, Bool.and_eq_true, Bool.not_eq_true', decide_eq_true_eq]
    tauto
  rw [AxleUnit.sound_eq, Bool.and_eq_true, Bool.and_eq_true, Bool.and_eq_true, Bool.and_eq_true, busy, link, standby,
    decide_eq_true_eq]
  exact ⟨fun ⟨⟨⟨⟨a, b⟩, c⟩, d⟩, e⟩ => ⟨a, b, c, d, e⟩, fun ⟨a, b, c, d, e⟩ => ⟨⟨⟨⟨a, b⟩, c⟩, d⟩, e⟩⟩

/-- A sound supervisor at which nothing is under way unless the allocator `runs`, with sound COMMAND records. -/
structure AxleOk (t : Timing) (runs : Prop) (u : AxleUnit) : Prop where
  sound : u.Sound t
  quiet : ¬ runs → u.quiet = true
  commands : ∀ r ∈ u.commands, r.sound = true

theorem AxleUnit.mem_commands (u : AxleUnit) (r : CommandRecord) :
    r ∈ u.commands ↔ u.slot = some r ∨ ∃ b, u.tx = .sending r b := by
  rcases htx : u.tx with _ | ⟨q, b⟩ | _ <;> simp [AxleUnit.commands, htx, eq_comm]

/-- Where something is under way the link is UP and the allocator runs. -/
theorem AxleOk.up_of_not_quiet {t : Timing} {runs : Prop} {u : AxleUnit} (h : AxleOk t runs u)
    (hq : ¬ u.quiet = true) : u.link = .up ∧ runs :=
  ⟨by_contra fun hl => hq (h.sound.link hl).1, by_contra fun hr => hq (h.quiet hr)⟩

theorem AxleUnit.Sound.offline_counts {t : Timing} {u : AxleUnit} (h : u.Sound t) (hs : u.state = .offline) :
    u.missCount = 0 ∧ u.goodCount = 0 := by
  have := h.counts
  simpa [AxleUnit.countsSound, hs] using this

/-- A free transmitter on an UP link takes what waits, and then a record waits only while it is busy (R100, R101). -/
theorem AxleUnit.takePending_busy {u : AxleUnit} (hl : u.link = .up) : u.takePending.tx = .idle → u.takePending.slot = none := by
  rcases htx : u.tx with _ | ⟨r, b⟩ | _ <;> rcases hs : u.slot with _ | q <;> simp [AxleUnit.takePending, htx, hs, hl]

theorem AxleUnit.mem_slot_takePending {u : AxleUnit} {r : CommandRecord} (h : u.takePending.slot = some r) :
    u.slot = some r := by
  obtain e | ⟨q, -, -, -, e⟩ := u.takePending_cases <;> rw [e] at h
  · exact h
  · cases h

/-- A supervisor that takes what waits is sound, when it was but for a free transmitter. -/
theorem AxleUnit.Sound.takePending {t : Timing} {u : AxleUnit} (hc : u.countsSound t = true)
    (hw : u.window.isRunning = u.outstanding.isSome)
    (hs : u.state.available = false → u.lastCommanded = 0 ∧ ∀ r ∈ u.slot, r.mode = .standby) (hl : u.link = .up) :
    u.takePending.Sound t where
  counts := by unfold AxleUnit.countsSound at hc ⊢; simpa using hc
  window := by simpa using hw
  standby := fun ha => by
    rw [AxleUnit.takePending_state] at ha
    rw [AxleUnit.takePending_lastCommanded]
    exact ⟨(hs ha).1, fun r hr => (hs ha).2 r (AxleUnit.mem_slot_takePending hr)⟩
  link := fun h => absurd ((AxleUnit.takePending_link u).trans hl) h
  busy := AxleUnit.takePending_busy hl

/-! ## The acts at an axle supervisor -/

section Acts

variable {t : Timing} {runs : Prop} {u : AxleUnit}

/-- A change that the conditions do not see keeps them. -/
theorem AxleOk.congr {v : AxleUnit} (h : AxleOk t runs u) (h1 : v.state = u.state) (h2 : v.missCount = u.missCount)
    (h3 : v.goodCount = u.goodCount) (h4 : v.window.isRunning = v.outstanding.isSome)
    (h5 : v.outstanding = none ∨ v.outstanding = u.outstanding) (h6 : v.lastCommanded = u.lastCommanded)
    (h7 : v.slot = u.slot) (h8 : v.tx = u.tx) (h9 : v.link = .up ∨ v.link = u.link) : AxleOk t runs v where
  sound :=
    { counts := by have := h.sound.counts; unfold AxleUnit.countsSound at this ⊢; rwa [h1, h2, h3]
      window := h4
      standby := by rw [h1, h6, h7]; exact h.sound.standby
      link := fun hl => by
        rcases h9 with h9 | h9
        · exact absurd h9 hl
        · rw [h9] at hl
          obtain ⟨hq, htx⟩ := h.sound.link hl
          rw [AxleUnit.quiet_iff] at hq ⊢
          rw [h1, h7, h8]
          exact ⟨⟨hq.1, h5.elim id fun e => e.trans hq.2.1, hq.2.2⟩, htx⟩
      busy := by rw [h7, h8]; exact h.sound.busy }
  quiet := fun hr => by
    have hq := h.quiet hr
    rw [AxleUnit.quiet_iff] at hq ⊢
    rw [h1, h7, h8]
    exact ⟨hq.1, h5.elim id fun e => e.trans hq.2.1, hq.2.2⟩
  commands := fun r hr => h.commands r (by rwa [AxleUnit.mem_commands, h7, h8, ← AxleUnit.mem_commands] at hr)

theorem AxleOk.suspect (h : AxleOk t runs u) {n : Nat} (ha : u.state.available = true) (h1 : 1 ≤ n)
    (hn : n < t.missLimit) : AxleOk t runs { u with state := .suspect, missCount := n } := by
  obtain ⟨hl, hr⟩ := h.up_of_not_quiet fun hq => by
    rw [((AxleUnit.quiet_iff u).mp hq).1] at ha; cases ha
  have good : u.goodCount = 0 := by
    have hc := h.sound.counts
    unfold AxleUnit.countsSound at hc
    cases hs : u.state <;> simp_all [AxleState.available]
  exact
    { sound :=
        { counts := by simp [AxleUnit.countsSound, good, h1, hn]
          window := h.sound.window
          standby := fun hf => by cases hf
          link := fun hf => absurd hl hf
          busy := h.sound.busy }
      quiet := fun hf => absurd hr hf
      commands := h.commands }

/-- Entering OFFLINE leaves an axle commanded 0, and what waits for it a STANDBY record (R116, R117). -/
theorem AxleOk.lose (h : AxleOk t runs u) (hs : u.state ≠ .offline) : AxleOk t runs u.loseAxle := by
  obtain ⟨hl, hr⟩ := h.up_of_not_quiet fun hq => hs ((AxleUnit.quiet_iff u).mp hq).1
  exact
    { sound :=
        { counts := rfl
          window := h.sound.window
          standby := fun _ => ⟨rfl, fun r hr' => by
            obtain ⟨q, -, rfl⟩ := Option.map_eq_some_iff.mp hr'
            exact q.toStandby_mode⟩
          link := fun hf => absurd hl hf
          busy := fun htx => by rw [AxleUnit.loseAxle, h.sound.busy htx]; rfl }
      quiet := fun hf => absurd hr hf
      commands := fun r hr' => by
        rcases (AxleUnit.mem_commands _ r).mp hr' with hr' | ⟨b, hb⟩
        · obtain ⟨q, hq, rfl⟩ := Option.map_eq_some_iff.mp hr'
          exact CommandRecord.toStandby_sound (h.commands q ((AxleUnit.mem_commands u q).mpr (.inl hq)))
        · exact h.commands r ((AxleUnit.mem_commands u r).mpr (.inr ⟨b, hb⟩)) }

theorem AxleOk.completed (h : AxleOk t runs u) {r : CommandRecord} (n : Nat) (htx : u.tx = .sending r false) :
    AxleOk t runs (u.completeCommand r n) := by
  obtain ⟨hl, hr⟩ := h.up_of_not_quiet fun hq => ((AxleUnit.quiet_iff u).mp hq).2.2.2 r htx
  exact
    { sound := AxleUnit.Sound.takePending h.sound.counts rfl h.sound.standby hl
      quiet := fun hf => absurd hr hf
      commands := fun q hq => by
        have := AxleUnit.mem_commands_takePending hq
        rcases (AxleUnit.mem_commands _ q).mp this with hq | ⟨b, hb⟩
        · exact h.commands q ((AxleUnit.mem_commands u q).mpr (.inl hq))
        · cases hb }

/-- A transmitter that sends a break instead of a frame that a RESTART voided. -/
theorem AxleOk.voided (h : AxleOk t runs u) : AxleOk t runs { u with tx := .breaking } where
  sound :=
    { counts := h.sound.counts
      window := h.sound.window
      standby := h.sound.standby
      link := fun hl => by
        obtain ⟨h1, h2, h3, -⟩ := (AxleUnit.quiet_iff u).mp (h.sound.link hl).1
        exact ⟨(AxleUnit.quiet_iff _).mpr ⟨h1, h2, h3, fun _ => nofun⟩, fun _ _ => nofun⟩
      busy := nofun }
  quiet := fun hr => by
    obtain ⟨h1, h2, h3, -⟩ := (AxleUnit.quiet_iff u).mp (h.quiet hr)
    exact (AxleUnit.quiet_iff _).mpr ⟨h1, h2, h3, fun _ => nofun⟩
  commands := fun r hr => by
    rcases (AxleUnit.mem_commands _ r).mp hr with hr | ⟨b, hb⟩
    · exact h.commands r ((AxleUnit.mem_commands u r).mpr (.inl hr))
    · cases hb

theorem AxleOk.breakEnded (h : AxleOk t runs u) : AxleOk t runs u.breakEnded := by
  rcases htx : u.tx with _ | ⟨r, b⟩ | _
  · rw [AxleUnit.breakEnded, htx]; exact h
  · rw [AxleUnit.breakEnded, htx]; exact h
  · have eq : u.breakEnded = ({ u with tx := .idle } : AxleUnit).takePending := by rw [AxleUnit.breakEnded, htx]
    have quietIdle : u.quiet = true → ({ u with tx := .idle } : AxleUnit).takePending = { u with tx := .idle }
        ∧ ({ u with tx := .idle } : AxleUnit).quiet = true := fun hq => by
      obtain ⟨h1, h2, h3, -⟩ := (AxleUnit.quiet_iff u).mp hq
      exact ⟨by simp [AxleUnit.takePending, h3], (AxleUnit.quiet_iff _).mpr ⟨h1, h2, h3, fun _ => nofun⟩⟩
    refine ⟨?_, fun hr => ?_, fun q hq => ?_⟩
    · rw [eq]
      by_cases hl : u.link = .up
      · exact AxleUnit.Sound.takePending h.sound.counts h.sound.window h.sound.standby hl
      · have hq := (h.sound.link hl).1
        rw [(quietIdle hq).1]
        exact
          { counts := h.sound.counts
            window := h.sound.window
            standby := h.sound.standby
            link := fun _ => ⟨(quietIdle hq).2, fun _ _ => nofun⟩
            busy := fun _ => ((AxleUnit.quiet_iff u).mp hq).2.2.1 }
    · obtain ⟨e, hq⟩ := quietIdle (h.quiet hr)
      rw [eq, e]; exact hq
    · rw [eq] at hq
      rcases (AxleUnit.mem_commands _ q).mp (AxleUnit.mem_commands_takePending hq) with hq | ⟨b, hb⟩
      · exact h.commands q ((AxleUnit.mem_commands u q).mpr (.inl hq))
      · cases hb

/-- A matched ready answer keeps the counts that the axle state goes with (R98, R111). -/
theorem AxleUnit.readied_counts (hc : u.countsSound t = true) : (u.readied t).countsSound t = true := by
  cases hs : u.state <;> simp only [AxleUnit.countsSound, hs, Bool.and_eq_true, decide_eq_true_eq] at hc <;>
    simp only [AxleUnit.readied, hs, AxleUnit.counted]
  · split <;> simp [AxleUnit.countsSound, hc]
    omega
  · split <;> simp [AxleUnit.countsSound, hc]
    omega
  · simp [AxleUnit.countsSound, hs, hc]
  · simp [AxleUnit.countsSound, hc]

/-- A ready answer changes the axle state and its counts alone. -/
theorem AxleUnit.readied_eq (t : Timing) (u : AxleUnit) : u.readied t
    = { u with state := (u.readied t).state, missCount := (u.readied t).missCount, goodCount := (u.readied t).goodCount } := by
  unfold AxleUnit.readied AxleUnit.counted
  split
  · split <;> rfl
  · split <;> rfl
  · rfl
  · rfl

/-- An axle that is not available after a ready answer was not available before it. -/
theorem AxleUnit.available_of_readied (h : (u.readied t).state.available = false) : u.state.available = false := by
  cases hs : u.state
  · rfl
  · rfl
  · simp [AxleUnit.readied, hs, AxleState.available] at h
  · simp [AxleUnit.readied, hs, AxleState.available] at h

theorem AxleOk.stored (h : AxleOk t runs u) (b : FeedbackFields) : AxleOk t runs (u.storeFeedback b) :=
  h.congr rfl rfl rfl rfl (.inl rfl) rfl rfl rfl (.inr rfl)

theorem AxleOk.readied (h : AxleOk t runs u) (b : FeedbackFields) (ho : u.outstanding.isSome = true) :
    AxleOk t runs ((u.storeFeedback b).readied t) := by
  obtain ⟨hl, hr⟩ := h.up_of_not_quiet fun hq => by
    rw [((AxleUnit.quiet_iff u).mp hq).2.1] at ho; cases ho
  have hst := (h.stored b).sound
  have eq := AxleUnit.readied_eq t (u.storeFeedback b)
  have hcounts := AxleUnit.readied_counts hst.counts
  have havail := AxleUnit.available_of_readied (t := t) (u := u.storeFeedback b)
  generalize hv : (u.storeFeedback b).readied t = v at eq hcounts havail
  have slot : v.slot = u.slot := by rw [eq]; rfl
  have tx : v.tx = u.tx := by rw [eq]; rfl
  exact
    { sound :=
        { counts := hcounts
          window := by rw [eq]; rfl
          standby := fun ha => by
            obtain ⟨h1, h2⟩ := hst.standby (havail ha)
            exact ⟨by rw [eq]; exact h1, by rw [slot]; exact h2⟩
          link := fun hf => absurd (by rw [eq]; exact hl) hf
          busy := by rw [slot, tx]; exact h.sound.busy }
      quiet := fun hf => absurd hr hf
      commands := fun r hr' => h.commands r (by
        rwa [AxleUnit.mem_commands, slot, tx, ← AxleUnit.mem_commands] at hr') }

/-- What a break of the link leaves of the port (R120): nothing outstanding, waiting or being sent. -/
theorem AxleUnit.linkBroken_spec (u : AxleUnit) : u.linkBroken.outstanding = none ∧ u.linkBroken.window = .stopped
    ∧ u.linkBroken.slot = none ∧ u.linkBroken.state = u.state ∧ u.linkBroken.missCount = u.missCount
    ∧ u.linkBroken.goodCount = u.goodCount ∧ u.linkBroken.lastCommanded = u.lastCommanded
    ∧ u.linkBroken.link = .broken ∧ ∀ r b, u.linkBroken.tx ≠ .sending r b := by
  rcases htx : u.tx with _ | ⟨r, b⟩ | _
  · simp [AxleUnit.linkBroken, AxleUnit.clearOutstanding, AxleUnit.cutOff, htx]
  · cases b <;> simp [AxleUnit.linkBroken, AxleUnit.clearOutstanding, AxleUnit.cutOff, htx]
  · simp [AxleUnit.linkBroken, AxleUnit.clearOutstanding, AxleUnit.cutOff, htx]

/-- An OFFLINE axle commanded 0 at which nothing is under way is sound; a frame that a RESTART has voided may still be
sent on an UP link. -/
theorem AxleOk.rest (hs : u.state = .offline) (hm : u.missCount = 0) (hg : u.goodCount = 0) (ho : u.outstanding = none)
    (hw : u.window = .stopped) (hslot : u.slot = none) (hc : u.lastCommanded = 0)
    (htx : ∀ r b, u.tx = .sending r b → b = true ∧ u.link = .up ∧ r.sound = true) : AxleOk t runs u :=
  have quiet : u.quiet = true :=
    (AxleUnit.quiet_iff u).mpr ⟨hs, ho, hslot, fun r h => Bool.false_ne_true (htx r false h).1⟩
  { sound :=
      { counts := by simp [AxleUnit.countsSound, hs, hm, hg]
        window := by rw [hw, ho]; rfl
        standby := fun _ => ⟨hc, by rw [hslot]; exact fun _ => nofun⟩
        link := fun hl => ⟨quiet, fun r b h => hl (htx r b h).2.1⟩
        busy := fun _ => hslot }
    quiet := fun _ => quiet
    commands := fun r hr => by
      rcases (AxleUnit.mem_commands u r).mp hr with hr | ⟨b, hb⟩
      · rw [hslot] at hr; cases hr
      · exact (htx r b hb).2.2 }

theorem AxleOk.brokenOffline (h : AxleOk t runs u) (hs : u.state = .offline) : AxleOk t runs u.linkBroken := by
  obtain ⟨ho, hw, hslot, hst, hm, hg, hc, -, htx⟩ := u.linkBroken_spec
  obtain ⟨m0, g0⟩ := h.sound.offline_counts hs
  exact .rest (hst.trans hs) (hm.trans m0) (hg.trans g0) ho hw hslot
    (hc.trans (h.sound.standby (by rw [hs]; rfl)).1) fun r b e => absurd e (htx r b)

theorem AxleOk.broken : AxleOk t runs u.linkBroken.loseAxle := by
  obtain ⟨ho, hw, hslot, -, -, -, -, -, htx⟩ := u.linkBroken_spec
  exact .rest rfl rfl rfl ho hw (by rw [AxleUnit.loseAxle, hslot]; rfl) rfl fun r b e => absurd e (htx r b)

/-- The record as the supervisor takes it is sound, and a STANDBY record of torque 0 for an axle that is not available
(R88, R99). -/
theorem AxleUnit.screen_sound {r : CommandRecord} (hr : r.sound = true) : (u.screen r).sound = true
    ∧ (u.state.available = false → (u.screen r).mode = .standby ∧ (u.screen r).torque = 0) := by
  unfold AxleUnit.screen
  split
  · next h => exact ⟨hr, fun hf => by rw [h] at hf; cases hf⟩
  · exact ⟨CommandRecord.toStandby_sound hr, fun _ => ⟨r.toStandby_mode, CommandRecord.toStandby_torque hr⟩⟩

theorem AxleOk.handoff (h : AxleOk t runs u) {r : CommandRecord} (hruns : runs) (hr : r.sound = true) :
    AxleOk t runs (u.handoff r) := by
  obtain ⟨hsound, hstandby⟩ := AxleUnit.screen_sound (u := u) hr
  by_cases hl : u.link = .up
  · rw [AxleUnit.handoff, if_pos hl]
    refine ⟨AxleUnit.Sound.takePending h.sound.counts h.sound.window (fun ha => ⟨(hstandby ha).2, ?_⟩) hl,
      fun hf => absurd hruns hf, fun q hq => ?_⟩
    · rintro _ ⟨⟩; exact (hstandby ha).1
    · rcases (AxleUnit.mem_commands _ q).mp (AxleUnit.mem_commands_takePending hq) with hq | ⟨b, hb⟩
      · cases hq; exact hsound
      · exact h.commands q ((AxleUnit.mem_commands u q).mpr (.inr ⟨b, hb⟩))
  · rw [AxleUnit.handoff, if_neg hl]
    obtain ⟨hq, htx⟩ := h.sound.link hl
    have hoff : u.state.available = false := by rw [((AxleUnit.quiet_iff u).mp hq).1]; rfl
    exact
      { sound :=
          { counts := h.sound.counts
            window := h.sound.window
            standby := fun _ => ⟨(hstandby hoff).2, (h.sound.standby hoff).2⟩
            link := fun _ => ⟨hq, htx⟩
            busy := h.sound.busy }
        quiet := h.quiet
        commands := h.commands }

/-- No act makes an axle supervisor unsound. -/
theorem AxleAct.ok {v : AxleUnit} (ha : AxleAct t runs u v) (h : AxleOk t runs u) : AxleOk t runs v := by
  cases ha with
  | receiver r => exact h.congr rfl rfl rfl h.sound.window (.inr rfl) rfl rfl rfl (.inr rfl)
  | linkUp => exact h.congr rfl rfl rfl h.sound.window (.inr rfl) rfl rfl rfl (.inl rfl)
  | clearOutstanding => exact h.congr rfl rfl rfl rfl (.inl rfl) rfl rfl rfl (.inr rfl)
  | suspect n ha h1 hn => exact h.suspect ha h1 hn
  | lose hs => exact h.lose hs
  | completed r n htx => exact h.completed n htx
  | voided r _ => exact h.voided
  | breakEnded => exact h.breakEnded
  | stored b => exact h.stored b
  | readied b ho => exact h.readied b ho
  | brokenOffline hs => exact h.brokenOffline hs
  | broken => exact .broken
  | handoff r hruns hr => exact h.handoff hruns hr

/-- What a RESTART leaves of an axle supervisor, and of a COMMAND in transmission (R124). -/
theorem AxleUnit.restart_spec (u : AxleUnit) : u.restart.state = .offline ∧ u.restart.missCount = 0
    ∧ u.restart.goodCount = 0 ∧ u.restart.outstanding = none ∧ u.restart.window = .stopped ∧ u.restart.slot = none
    ∧ u.restart.lastCommanded = 0 ∧ u.restart.link = u.link
    ∧ ∀ r b, u.restart.tx = .sending r b → b = true ∧ ∃ b', u.tx = .sending r b' := by
  rcases htx : u.tx with _ | ⟨r, b⟩ | _ <;> simp [AxleUnit.restart, AxleUnit.sendBreak, htx]

theorem AxleOk.restart (h : AxleOk t runs u) {runs' : Prop} : AxleOk t runs' u.restart := by
  obtain ⟨hs, hm, hg, ho, hw, hslot, hc, hl, htx⟩ := u.restart_spec
  refine .rest hs hm hg ho hw hslot hc fun r b e => ?_
  obtain ⟨hb, b', e'⟩ := htx r b e
  refine ⟨hb, hl.trans (by_contra fun hf => (h.sound.link hf).2 r b' e'), ?_⟩
  exact h.commands r ((AxleUnit.mem_commands u r).mpr (.inr ⟨b', e'⟩))

end Acts

/-! ## Both axle supervisors -/

/-- Both axle supervisors sound, with the allocator's state and the timing. -/
def AxlesOk (s : State) : Prop :=
  ∀ a, AxleOk s.config.timing (s.alloc.state.stationary = false) (s.axle a)

theorem axlesOk_iff (s : State) : AxlesOk s ↔ s.axlesSound = true ∧ s.commandsSound = true := by
  simp only [State.axlesSound, State.commandsSound, Bool.and_eq_true, Bool.or_eq_true, Bool.not_eq_true',
    AxleUnit.sound_iff, List.all_eq_true]
  constructor
  · intro h
    have hf := h .front
    have hr := h .rear
    refine ⟨⟨⟨hf.sound, hr.sound⟩, ?_⟩, hf.commands, hr.commands⟩
    by_cases hst : s.alloc.state.stationary = false
    · exact .inl hst
    · exact .inr ⟨hf.quiet hst, hr.quiet hst⟩
  · rintro ⟨⟨⟨hf, hr⟩, hq⟩, cf, cr⟩ a
    cases a
    · exact ⟨hf, fun hst => (hq.resolve_left hst).1, cf⟩
    · exact ⟨hr, fun hst => (hq.resolve_left hst).2, cr⟩

theorem AxlesOk.congr {s t : State} (h : AxlesOk s) (ht : t.config.timing = s.config.timing)
    (hst : s.alloc.state.stationary = false → t.alloc.state.stationary = false) (ha : ∀ a, t.axle a = s.axle a) :
    AxlesOk t := by
  intro a
  have := h a
  rw [ht, ha a]
  exact ⟨this.sound, fun hf => this.quiet fun hr => hf (hst hr), this.commands⟩

theorem axle_setAxle_of_ne (s : State) {a b : AxleId} (h : b ≠ a) (u : AxleUnit) : (s.setAxle a u).axle b = s.axle b :=
  axle_onAxle_of_ne s h fun _ => u

/-- An axle at which nothing is under way is as sound under any timing: it has no counts. -/
theorem AxleOk.retime {t t' : Timing} {runs runs' : Prop} {u : AxleUnit} (h : AxleOk t runs u) (hq : u.quiet = true) :
    AxleOk t' runs' u := by
  have hs := ((AxleUnit.quiet_iff u).mp hq).1
  obtain ⟨hm, hg⟩ := h.sound.offline_counts hs
  exact
    { sound := { h.sound with counts := by simp [AxleUnit.countsSound, hs, hm, hg] }
      quiet := fun _ => hq
      commands := h.commands }

/-- No move makes an axle supervisor unsound: a TIMING or ENVELOPE, which moves what its counts are held to, is taken while
nothing is under way (R101, R151). -/
theorem Move.axlesOk {own : MasterId → Prop} {s t : State} (h : Move own s t) (hs : AxlesOk s) : AxlesOk t := by
  cases h with
  | port p => exact hs.congr (by simp) (by simp) (by simp)
  | share => exact hs.congr (by simp) (by simp) (by simp)
  | table | bands | holds | map | inside => exact hs.congr rfl id fun a => by cases a <;> rfl
  | record al h1 => exact hs.congr rfl (fun h => by rw [← h1] at h; exact h) fun a => by cases a <;> rfl
  | axle a ha =>
    intro b
    rw [setAxle_config, setAxle_alloc]
    by_cases hb : b = a
    · subst hb
      rw [axle_setAxle]
      exact ha.ok (hs b)
    · rw [axle_setAxle_of_ne s hb]
      exact hs b
  | config c st _ _ hst =>
    rcases hst with ⟨ht, rfl⟩ | ⟨hold, -⟩
    · exact hs.congr ht id fun a => by cases a <;> rfl
    · intro a
      have hq := (hs a).quiet (by rw [hold]; decide)
      have := (hs a).retime (t' := c.timing) (runs' := st.stationary = false) hq
      cases a <;> exact this

theorem enterRunning_axle (d : DemandFields) (s : State) (a : AxleId) : (enterRunning d s).axle a = s.axle a := by
  unfold enterRunning; by_cases h : s.alloc.state = .lapsed <;> cases a <;> simp [h, lapseRemoval]

theorem AfterReset.axlesOk {s t : State} (h : AfterReset s t) : AxlesOk t := by
  intro a
  rcases h with rfl | ⟨_, _, rfl⟩ <;> cases a <;> exact .rest rfl rfl rfl rfl rfl rfl rfl fun _ _ => nofun

/-- Settles O53, act by act at an axle (`AxleAct.ok`). -/
theorem everyStepKeepsTheAxlesAndCommandsSound : Obligations.EveryStepKeepsTheAxlesAndCommandsSound := by
  intro s t h1 h2 h
  refine (axlesOk_iff t).mp (step_keeps (P := AxlesOk) (fun _ _ hm => hm.axlesOk) (fun s hs a => ?_)
    (fun d s _ hs => hs.congr (by rw [enterRunning_config]) (fun _ => enterRunning_stationary d s) (enterRunning_axle d s))
    (fun s _ hs => hs.congr rfl (fun _ => rfl) fun a => by cases a <;> rfl)
    (fun _ s _ hs => hs.congr rfl id fun a => by cases a <;> rfl) (fun _ _ hr => hr.axlesOk)
    (fun s _ hs => hs.congr rfl id fun a => by cases a <;> rfl) h ((axlesOk_iff s).mpr ⟨h1, h2⟩))
  cases a
  · exact (hs .front).restart
  · exact (hs .rear).restart

end Sys2Proof.Machine
end

section
/-! PROOFS. Steps, the RESET input and the power-on values: the front command (O1), a next state for every command (O2),
what reset leaves (O3, O5), and what RESET holds and releases (O4). -/

namespace Sys2Proof.Machine

/-! ## The front command -/

theorem step_cons (c : Instr) (rest : List Instr) (s : State) :
    step { s with pending := c :: rest } = exec c { s with pending := rest } := rfl

theorem step_nil {s : State} (h : s.pending = []) : step s = .next s := by
  rw [step, h]

/-- Settles O1, from the two cases of the queue. -/
theorem stepRunsTheFrontCommand : Obligations.StepRunsTheFrontCommand :=
  ⟨step_cons, fun _ => step_nil⟩

/-! ## A next state for every command -/

theorem Move.pending {own : MasterId → Prop} {s t : State} (h : Move own s t) : t.pending = s.pending := by
  cases h <;> simp

theorem Moves.pending {own : MasterId → Prop} {s t : State} (h : Moves own s t) : t.pending = s.pending :=
  h.keeps (P := fun t => t.pending = s.pending) (fun _ _ hm ht => hm.pending.trans ht) rfl

theorem enterRunning_pending (d : DemandFields) (s : State) : (enterRunning d s).pending = s.pending := by
  unfold enterRunning; by_cases h : s.alloc.state = .lapsed <;> simp [h, lapseRemoval]

theorem AfterReset.pending {s t : State} (h : AfterReset s t) : t.pending = s.pending := by
  rcases h with rfl | ⟨_, _, rfl⟩ <;> rfl

/-- No command changes the queue of waiting commands (log 1). -/
theorem exec_pending {c : Instr} {s t : State} (he : exec c s = .next t) : t.pending = s.pending := by
  rcases exec_moves he with hm | ⟨v, hv, hm⟩ | ⟨d, v, hv, -, hm⟩ | ⟨-, hm⟩ | ⟨_, v, -, hv, rfl⟩ | hr
  · exact hm.pending
  · exact hm.pending.trans hv.pending
  · exact hm.pending.trans ((enterRunning_pending d v).trans hv.pending)
  · exact hm.pending
  · exact hv.pending
  · exact hr.pending

/-- Settles O2, from what a step can do (`exec_moves`). -/
theorem everyCommandAnswersANextState : Obligations.EveryCommandAnswersANextState := by
  intro c s
  obtain ⟨t, ht⟩ := exec_next c s
  exact ⟨t, ht, exec_pending ht⟩

/-! ## The power-on values -/

theorem MasterPort.powerOn_atPowerOn (tx : MasterTx) : ({ MasterPort.powerOn with tx := tx } : MasterPort).atPowerOn :=
  ⟨rfl, rfl, rfl, rfl, rfl, rfl, rfl, rfl, rfl, rfl, rfl, rfl⟩

theorem AxleUnit.powerOn_atPowerOn (tx : AxleTx) : ({ AxleUnit.powerOn with tx := tx } : AxleUnit).atPowerOn :=
  ⟨rfl, rfl, rfl, rfl, rfl, rfl, rfl, rfl, rfl, rfl, rfl⟩

theorem powerOn_readCell (row column : Nat) (hr : row < 8) (hc : column < 8) : readCell State.powerOn.map row column = 500 :=
  readCell_replicate 500 hr hc

/-- RESET leaves the power-on values in every block, whatever it does to the transmitters (R147). -/
theorem AfterReset.atPowerOn {s t : State} (h : AfterReset s t) : t.atPowerOn := by
  have alloc : Allocator.powerOn.atPowerOn := ⟨rfl, rfl, rfl, rfl, rfl, rfl, rfl, rfl, rfl⟩
  have config : ConfigStore.powerOn.atPowerOn := ⟨rfl, rfl, rfl, rfl, rfl, rfl⟩
  rcases h with rfl | ⟨_, _, rfl⟩
  · exact ⟨MasterPort.powerOn_atPowerOn .idle, MasterPort.powerOn_atPowerOn .idle, AxleUnit.powerOn_atPowerOn .idle,
      AxleUnit.powerOn_atPowerOn .idle, rfl, rfl, powerOn_readCell, rfl, rfl, rfl, rfl, alloc, config⟩
  · exact ⟨MasterPort.powerOn_atPowerOn .breaking, MasterPort.powerOn_atPowerOn .breaking,
      AxleUnit.powerOn_atPowerOn .breaking, AxleUnit.powerOn_atPowerOn .breaking, rfl, rfl, powerOn_readCell, rfl, rfl,
      rfl, rfl, alloc, config⟩

/-- The part at reset is the part after a release of RESET with both straps low (log 2). -/
theorem reset_afterReset : AfterReset State.reset State.reset :=
  .inr ⟨false, false, rfl⟩

/-- Settles O3: reset is a release of RESET with both straps low. -/
theorem resetLeavesThePowerOnValues : Obligations.ResetLeavesThePowerOnValues :=
  ⟨reset_afterReset.atPowerOn, rfl, rfl, rfl, rfl, fun p => by cases p <;> rfl, fun a => by cases a <;> rfl⟩

/-- Settles O5: every invariant holds after a release of RESET. -/
theorem theInvariantsHoldAtReset : Obligations.TheInvariantsHoldAtReset := by
  obtain ⟨hstack, hshares, halloc⟩ := (allocationSound_iff _).mp reset_afterReset.allocationSound
  obtain ⟨haxles, hcommands⟩ := (axlesOk_iff _).mp reset_afterReset.axlesOk
  exact ⟨reset_afterReset.portsSound, reset_afterReset.tableSound, hstack, hshares, halloc, hcommands, haxles⟩

/-! ## The RESET input -/

theorem exec_resetAssert (s : State) :
    exec .resetAssert s = .next { State.powerOn with pending := s.pending, inside := s.inside } := rfl

theorem exec_resetRelease {s : State} (h : s.resetAsserted = true) (brs1 brs0 : Bool) :
    exec (.resetRelease brs1 brs0) s = .next (releaseReset brs1 brs0 s) := by
  simp [exec, execResetRelease, h]

theorem exec_resetRelease_released {s : State} (h : s.resetAsserted = false) (brs1 brs0 : Bool) :
    exec (.resetRelease brs1 brs0) s = .next s := by
  simp [exec, execResetRelease, h]

theorem strappedRate_eq (brs1 brs0 : Bool) : strappedRate brs1 brs0
    = if brs1 then (if brs0 then .kbit2000 else .kbit1000) else (if brs0 then .kbit500 else .kbit250) := by
  cases brs1 <;> cases brs0 <;> rfl

/-- Settles O4: the two RESET rows by their equations, and every other row by `exec_asserted`. -/
theorem resetHoldsAndReleasesThePart : Obligations.ResetHoldsAndReleasesThePart := by
  refine ⟨fun s => ⟨_, exec_resetAssert s, AfterReset.atPowerOn (s := s) (.inl rfl), rfl, rfl, rfl,
      fun p => by cases p <;> rfl, fun a => by cases a <;> rfl⟩,
    fun s brs1 brs0 h => ⟨_, exec_resetRelease h brs1 brs0, AfterReset.atPowerOn (s := s) (.inr ⟨_, _, rfl⟩), rfl, rfl,
      rfl, strappedRate_eq brs1 brs0, fun p => by cases p <;> rfl, fun a => by cases a <;> rfl⟩,
    fun c s h h1 h2 => exec_asserted h h1 h2, fun s brs1 brs0 h => exec_resetRelease_released h brs1 brs0⟩

end Sys2Proof.Machine
end

section
/-! PROOFS. Requests and replies: what a decoder takes (O6), one reply for each request (O7), what taking and answering
move (O8), and the requests that reach no owner (O9). -/

namespace Sys2Proof.Machine

/-! ## What a decoder takes -/

/-- A decoder that cannot take the head frame of its port by the row `c` takes nothing. -/
theorem exec_request_idle {c : Instr} {p : MasterId} {s : State} (hc : requestPort c = some p)
    (h : ∀ f, Ready p f s → c ≠ decodeRequest p f) : exec c s = .next s := by
  rw [exec_request hc]
  rcases taking_cases c p s (ownerOf c) with e | ⟨f, hr, hd, -⟩
  · exact e
  · exact absurd hd.symm (h f hr)

theorem Ready.head_unique {p : MasterId} {f g : Frame} {s : State} (hf : Ready p f s) (hg : Ready p g s) : f = g :=
  Option.some.inj (hf.2.1.symm.trans hg.2.1)

/-- Settles O6: a taking needs a frame, room for its reply, and the row of that frame. -/
theorem noRequestIsTakenWithoutAFrameAndReplyRoom : Obligations.NoRequestIsTakenWithoutAFrameAndReplyRoom := by
  intro c p s hc
  refine ⟨fun h => exec_request_idle hc fun f hr => ?_, fun f hf hne => exec_request_idle hc fun g hg => ?_⟩
  · obtain ⟨-, hq, hroom⟩ := hr
    rcases h with h | h
    · rw [h] at hq; cases hq
    · omega
  · rw [← hf.head_unique hg]; exact hne

/-- A request whose frame its row takes: the owner's answer is placed. -/
theorem exec_taken {c : Instr} {p : MasterId} {f : Frame} {s : State} (h : Ready p f s) (hd : decodeRequest p f = c) :
    exec c s = .next (answered p f (ownerOf c f (taken p s)).1 (ownerOf c f (taken p s)).2) := by
  rw [← hd]; exact exec_ready h

/-! ## One reply for each request -/

/-- A payload that begins with a result code (R161). -/
def BeginsWithCode (payload : List Byte) : Prop :=
  ∃ r : ResultCode, payload.head? = some r.code

theorem beginsWithCode_refuse (c : ResultCode) (s : State) : BeginsWithCode (refuse c s).1 := ⟨c, rfl⟩

theorem beginsWithCode_cons (r : ResultCode) (rest : List Byte) : BeginsWithCode (r.code :: rest) := ⟨r, rfl⟩

theorem beginsWithCode_onDemandLink {owner : Frame → State → List Byte × State} {f : Frame} {s : State}
    (h : BeginsWithCode (owner f s).1) (p : MasterId) : BeginsWithCode (onDemandLink p owner f s).1 := by
  cases p
  · exact h
  · exact beginsWithCode_refuse .notPermitted s

theorem beginsWithCode_configureAnswer (r : Option ResultCode) (n : Nat) (store : State → State) (s : State) :
    BeginsWithCode (configureAnswer r n store s).1 := by
  cases r with
  | none => exact beginsWithCode_cons .accepted _
  | some c => exact beginsWithCode_refuse c s

theorem beginsWithCode_demandOwner (f : Frame) (s : State) : BeginsWithCode (demandOwner f s).1 := by
  unfold demandOwner
  split
  · exact beginsWithCode_refuse _ s
  · split
    · exact beginsWithCode_refuse _ s
    · exact beginsWithCode_cons _ _

/-- Every owner's answer begins with a result code (R161). -/
theorem ownerOf_beginsWithCode {c : Instr} {p : MasterId} (hc : requestPort c = some p) (f : Frame) (s : State) :
    BeginsWithCode (ownerOf c f s).1 := by
  cases c <;> cases hc
  case demand => exact beginsWithCode_onDemandLink (beginsWithCode_demandOwner f s) p
  case claim =>
    simp only [ownerOf, claimOwner]
    split
    · exact beginsWithCode_refuse _ s
    · exact beginsWithCode_cons _ _
  case release =>
    simp only [ownerOf, releaseOwner]
    split
    · exact beginsWithCode_refuse _ s
    · split
      · exact beginsWithCode_cons _ _
      · exact beginsWithCode_refuse _ s
  case releaseAll => exact beginsWithCode_cons .accepted _
  case hold =>
    simp only [ownerOf, holdOwner]
    split
    · exact beginsWithCode_refuse _ s
    · split
      · exact beginsWithCode_refuse _ s
      · split
        · exact beginsWithCode_refuse _ s
        · exact beginsWithCode_cons .accepted _
  case resume =>
    simp only [ownerOf, resumeOwner]
    split
    · exact beginsWithCode_refuse _ s
    · split
      · exact beginsWithCode_cons .accepted _
      · exact beginsWithCode_refuse _ s
  case mapWrite =>
    refine beginsWithCode_onDemandLink ?_ p
    unfold mapWriteOwner
    split
    · exact beginsWithCode_cons .accepted _
    · exact beginsWithCode_refuse _ s
  case mapFill =>
    refine beginsWithCode_onDemandLink ?_ p
    unfold mapFillOwner
    split
    · exact beginsWithCode_cons .accepted _
    · exact beginsWithCode_refuse _ s
  case mapRead =>
    simp only [ownerOf, mapReadOwner]
    split
    · exact beginsWithCode_cons .accepted _
    · exact beginsWithCode_refuse _ s
  case status => exact beginsWithCode_cons .accepted _
  case listClaims => exact beginsWithCode_cons .accepted _
  case listHolds => exact beginsWithCode_cons .accepted _
  case restart => exact beginsWithCode_onDemandLink (beginsWithCode_cons .accepted _) p
  case unknownRequest => exact beginsWithCode_refuse _ s
  case configureUnknownSection => exact beginsWithCode_refuse _ s
  all_goals exact beginsWithCode_configureAnswer _ _ _ s

/-- The reply's kind code is never the mirror's (R161). -/
theorem replyKind_spec (k : Byte) :
    replyKind k = (if k = 0x20#8 ∨ k = 0xA0#8 then 0xFF#8 else k ||| 0x80#8) ∧ replyKind k ≠ 0xA0#8 := by
  revert k; decide

/-- The two ports send what they sent, and their receive queues stand. -/
def SamePortQueues (s t : State) : Prop :=
  ∀ p, (t.master p).outgoing = (s.master p).outgoing ∧ (t.master p).rxQueue = (s.master p).rxQueue

theorem SamePortQueues.of_eq {s t : State} (h : ∀ p, t.master p = s.master p) : SamePortQueues s t :=
  fun p => by rw [h p]; exact ⟨rfl, rfl⟩

theorem SamePortQueues.onMaster {s : State} {p : MasterId} {g : MasterPort → MasterPort}
    (ho : (g (s.master p)).outgoing = (s.master p).outgoing) (hq : (g (s.master p)).rxQueue = (s.master p).rxQueue) :
    SamePortQueues s (s.onMaster p g) := by
  intro q
  by_cases h : q = p
  · subst h; rw [master_onMaster]; exact ⟨ho, hq⟩
  · rw [master_onMaster_of_ne s h]; exact ⟨rfl, rfl⟩

theorem samePortQueues_configureAnswer {s : State} (r : Option ResultCode) (n : Nat) {store : State → State}
    (h : SamePortQueues s (store s)) : SamePortQueues s (configureAnswer r n store s).2 := by
  cases r with
  | none => exact h
  | some c => exact .of_eq fun _ => rfl

/-- The demand port after an allocation inside which nothing falls sends what it sent. -/
theorem allocate_demand_queues (inp : AllocInput) (s : State) :
    (allocate inp s).demandPort.outgoing = s.demandPort.outgoing
      ∧ (allocate inp s).demandPort.rxQueue = s.demandPort.rxQueue
      ∧ (allocate inp s).stabilityPort.rxQueue = s.stabilityPort.rxQueue := by
  rw [allocate_demandPort, allocate_stabilityPort]
  simp [MasterPort.outgoing]

theorem demandOwner_queues {f : Frame} {s : State} (hin : s.inside = []) :
    (demandOwner f s).2.demandPort.outgoing = s.demandPort.outgoing
      ∧ (demandOwner f s).2.demandPort.rxQueue = s.demandPort.rxQueue
      ∧ (demandOwner f s).2.stabilityPort.rxQueue = s.stabilityPort.rxQueue := by
  unfold demandOwner
  split
  · exact ⟨rfl, rfl, rfl⟩
  · split
    · exact ⟨rfl, rfl, rfl⟩
    · have hi : (enterRunning (readDemand f) s).inside = [] := by
        unfold enterRunning; by_cases h : s.alloc.state = .lapsed <;> simp [h, lapseRemoval, hin]
      have hd := enterRunning_master (readDemand f) s .demand
      have hs := enterRunning_master (readDemand f) s .stability
      simp only [master_demand, master_stability] at hd hs
      simp only [allocateWith_demand_nothingInside _ hi]
      rw [← hd, ← hs]
      exact allocate_demand_queues _ _

/-- An owner that performs no allocation leaves what both ports have to send and take. -/
theorem ownerOf_queues {c : Instr} {p : MasterId} (hc : requestPort c = some p) (hd : c ≠ .demand .demand) (f : Frame)
    (s : State) : SamePortQueues s (ownerOf c f s).2 := by
  have rest : ∀ t : State, t.demandPort = s.demandPort → t.stabilityPort = s.stabilityPort → SamePortQueues s t :=
    fun t h1 h2 => .of_eq fun q => by cases q <;> assumption
  cases c <;> cases hc
  case demand =>
    cases p
    · exact absurd rfl hd
    · exact rest _ rfl rfl
  case claim =>
    simp only [ownerOf, claimOwner]
    split <;> exact rest _ rfl rfl
  case release =>
    simp only [ownerOf, releaseOwner]
    split
    · exact rest _ rfl rfl
    · split <;> exact rest _ rfl rfl
  case hold =>
    simp only [ownerOf, holdOwner]
    split
    · exact rest _ rfl rfl
    · split
      · exact rest _ rfl rfl
      · split <;> exact rest _ rfl rfl
  case resume =>
    simp only [ownerOf, resumeOwner]
    split
    · exact rest _ rfl rfl
    · split <;> exact rest _ rfl rfl
  case mapWrite =>
    cases p
    · simp only [ownerOf, onDemandLink, mapWriteOwner]
      split <;> exact rest _ rfl rfl
    · exact rest _ rfl rfl
  case mapFill =>
    cases p
    · simp only [ownerOf, onDemandLink, mapFillOwner]
      split <;> exact rest _ rfl rfl
    · exact rest _ rfl rfl
  case mapRead =>
    simp only [ownerOf, mapReadOwner]
    split <;> exact rest _ rfl rfl
  case status =>
    exact SamePortQueues.onMaster (g := fun m => { m with alert := m.alert.clear }) rfl rfl
  case restart =>
    cases p
    · intro q
      cases q <;> exact ⟨MasterPort.sendBreak_outgoing _, MasterPort.sendBreak_rxQueue _⟩
    · exact rest _ rfl rfl
  case configureAlert => exact samePortQueues_configureAnswer _ _ (SamePortQueues.onMaster rfl rfl)
  case releaseAll | listClaims | listHolds | unknownRequest | configureUnknownSection => exact rest _ rfl rfl
  all_goals exact samePortQueues_configureAnswer _ _ (rest _ rfl rfl)

/-- Settles O7: the owner's answer begins with a result code, and its frame is the last of what the port sends. -/
theorem everyTakenRequestYieldsOneReply : Obligations.EveryTakenRequestYieldsOneReply := by
  intro p f s hready
  have hreq := requestPort_decodeRequest p f
  have he := exec_ready hready
  generalize decodeRequest p f = c at hreq he ⊢
  have hcode := ownerOf_beginsWithCode hreq f (taken p s)
  obtain ⟨hkind, hmirror⟩ := replyKind_spec f.kind
  refine ⟨_, ((ownerOf c f (taken p s)).2.master p).outgoing, ⟨replyKind f.kind, (ownerOf c f (taken p s)).1⟩, he, ?_, hkind,
    hmirror, hcode, fun hin => ?_⟩
  · rw [answered, master_onMaster, MasterPort.placeReply_outgoing]
  · rw [answered, master_onMaster, master_onMaster_other, MasterPort.placeReply_rxQueue]
    by_cases hd : c = .demand .demand
    · subst hd
      cases hreq
      obtain ⟨h1, h2, h3⟩ := demandOwner_queues (f := f) (s := taken .demand s) (by rw [taken_inside]; exact hin rfl)
      exact ⟨h1.trans (taken_outgoing .demand .demand s), h2.trans (taken_rxQueue .demand s),
        h3.trans (taken_rxQueue_other .demand s)⟩
    · have h := ownerOf_queues hreq hd f (taken p s)
      exact ⟨(h p).1.trans (taken_outgoing p p s), (h p).2.trans (taken_rxQueue p s),
        (h p.other).2.trans (taken_rxQueue_other p s)⟩

/-! ## What taking and answering move -/

theorem onMaster_eq (s : State) (p : MasterId) (g : MasterPort → MasterPort) :
    s.onMaster p g = s.setMaster p (g (s.master p)) := rfl

/-- On an idle transmitter with no reply waiting the reply is sent at once (R167). -/
theorem MasterPort.placeReply_idle {m : MasterPort} (f : Frame) (htx : m.tx = .idle) (hq : m.replyQueue = []) :
    m.placeReply f = { m with
      tx := .sending f false
      holdoff := decide (4 ≤ m.rxQueue.length)
      waitingForRoom := false } := by
  obtain ⟨link, receiver, rx, wait, hold, reply, mirror, tx, alert⟩ := m
  obtain rfl : tx = .idle := htx
  obtain rfl : reply = [] := hq
  simp [MasterPort.placeReply, MasterPort.judge, MasterPort.arbitrate]

/-- On a busy transmitter the reply waits at the tail (R159, R167). -/
theorem MasterPort.placeReply_busy {m : MasterPort} (f : Frame) (htx : m.tx ≠ .idle) :
    m.placeReply f = { m with
      replyQueue := m.replyQueue ++ [f]
      holdoff := decide (4 ≤ m.rxQueue.length)
      waitingForRoom := !m.rxQueue.isEmpty && decide (3 ≤ m.replyQueue.length) } := by
  obtain ⟨link, receiver, rx, wait, hold, reply, mirror, tx, alert⟩ := m
  cases tx
  case idle => exact absurd rfl htx
  all_goals simp [MasterPort.placeReply, MasterPort.judge, MasterPort.arbitrate, Config.replyQueueSize]

/-- Settles O8, from the two forms of `MasterPort.placeReply`. -/
theorem takingAndAnsweringMoveOneFrame : Obligations.TakingAndAnsweringMoveOneFrame := by
  refine ⟨fun p s => rfl, fun p f payload s htx hq => ?_, fun p f payload s htx => ?_⟩
  · rw [answered, onMaster_eq, MasterPort.placeReply_idle _ htx hq]
  · rw [answered, onMaster_eq, MasterPort.placeReply_busy _ htx]

/-! ## Requests that reach no owner -/

theorem decodeRequest_unknown (p : MasterId) {f : Frame} (h : f.kind ∉ [Kind.demand, Kind.claim, Kind.release,
    Kind.releaseAll, Kind.hold, Kind.resume, Kind.configure, Kind.mapWrite, Kind.mapRead, Kind.mapFill, Kind.status,
    Kind.listClaims, Kind.listHolds, Kind.restart]) : decodeRequest p f = .unknownRequest p := by
  simp only [List.mem_cons, List.not_mem_nil, or_false, not_or] at h
  simp [decodeRequest, h]

theorem decodeRequest_demand (p : MasterId) {f : Frame} (h : f.kind = Kind.demand) : decodeRequest p f = .demand p := by
  unfold decodeRequest; rw [h]; rfl

theorem decodeRequest_mapWrite (p : MasterId) {f : Frame} (h : f.kind = Kind.mapWrite) :
    decodeRequest p f = .mapWrite p := by
  unfold decodeRequest; rw [h]; rfl

theorem decodeRequest_restart (p : MasterId) {f : Frame} (h : f.kind = Kind.restart) :
    decodeRequest p f = .restart p := by
  unfold decodeRequest; rw [h]; rfl

/-- Settles O9: the decoder's own answers are refusals that leave the state as it is. -/
theorem unknownAndUnpermittedRequestsReachNoOwner : Obligations.UnknownAndUnpermittedRequestsReachNoOwner := by
  refine ⟨fun p f s h hk => exec_taken h (decodeRequest_unknown p hk), fun c k f s hmem h hk => ?_⟩
  simp only [List.mem_cons, List.not_mem_nil, or_false, Prod.mk.injEq] at hmem
  rcases hmem with ⟨rfl, rfl⟩ | ⟨rfl, rfl⟩ | ⟨rfl, rfl⟩ | ⟨rfl, rfl⟩
  · exact exec_taken h (decodeRequest_demand _ hk)
  · exact exec_taken h (decodeRequest_mapWrite _ hk)
  · exact exec_taken h (decodeRequest_mapFill _ hk)
  · exact exec_taken h (decodeRequest_restart _ hk)

/-! ## Event flags -/

theorem EventFlag.bit_eq (f : EventFlag) : f.bit = 1#16 <<< f.position := by
  cases f <;> decide

/-- A raise sets one flag of one port, and judges its line (R168, R170). -/
theorem raise_eq (p : MasterId) (f : EventFlag) (s : State) : raise p f s = s.setMaster p
    { s.master p with
      alert :=
        { (s.master p).alert with
          flags := (s.master p).alert.flags ||| (1#16 <<< f.position)
          alertLine := decide
            (((s.master p).alert.flags ||| (1#16 <<< f.position)) &&& ~~~(s.master p).alert.masks ≠ 0#16) } } := by
  rw [← EventFlag.bit_eq, raise, State.onAlert, onMaster_eq, AlertUnit.raise, AlertUnit.judge]
  simp only [bne, ← decide_not, beq_eq_decide]

/-- Settles O10. -/
theorem aRaisedFlagIsSetAndTheAlertLineFollows : Obligations.ARaisedFlagIsSetAndTheAlertLineFollows := by
  refine ⟨by decide, raise_eq, fun p f g s => ?_, fun f s p => ?_⟩
  · rw [master_raise, AlertUnit.isSet_raise, Bool.or_comm]
    simp [eq_comm]
  · rw [master_raiseBoth, master_raise]

end Sys2Proof.Machine
end

section
/-! PROOFS. The requests on the claim table: CLAIM (O12, O13, O14), RELEASE, RELEASE ALL and LIST CLAIMS (O15), and the
derate intakes (O51). -/

namespace Sys2Proof.Machine

/-! ## Keys of the table -/

theorem findClaim_eq_head? (t : List ClaimEntry) (src : Source) (axle : ClaimAxle) (kind : ClaimKind) :
    findClaim t src axle kind = (entriesUnder t src axle kind).head? := List.head?_filter.symm

theorem removeClaim_eq (t : List ClaimEntry) (src : Source) (axle : ClaimAxle) (kind : ClaimKind) :
    removeClaim t src axle kind = entriesNotUnder t src axle kind := rfl

/-- Where no entry stands under a key, the table without the entries under it is the table. -/
theorem entriesNotUnder_of_nil {t : List ClaimEntry} {src : Source} {axle : ClaimAxle} {kind : ClaimKind}
    (h : entriesUnder t src axle kind = []) : entriesNotUnder t src axle kind = t := by
  simp only [entriesUnder, List.filter_eq_nil_iff] at h
  simp only [entriesNotUnder, List.filter_eq_self]
  intro e he
  rw [Bool.eq_false_iff.mpr (h e he)]
  rfl

theorem claimAxle_ofCode_eq_some (b : Byte) (axle : ClaimAxle) : ClaimAxle.ofCode b = some axle ↔ b.toNat = axle.code := by
  revert b; cases axle <;> decide

theorem claimKind_ofCode_eq_some (b : Byte) (kind : ClaimKind) : ClaimKind.ofCode b = some kind ↔ b.toNat = kind.code := by
  revert b; cases kind <;> decide

theorem keyExists_iff (axle : ClaimAxle) (kind : ClaimKind) :
    keyExists axle kind = true ↔ ¬ (kind = .slew ∧ axle = .total) := by
  simp [keyExists, imp_iff_not_or]

/-- Two codes name a key when they are its codes and it is not SLEW on TOTAL (R2, R183). -/
theorem readKey_eq_some {a k : Byte} {axle : ClaimAxle} {kind : ClaimKind} : readKey a k = some (axle, kind) ↔
    a.toNat = axle.code ∧ k.toNat = kind.code ∧ ¬ (kind = .slew ∧ axle = .total) := by
  rw [← claimAxle_ofCode_eq_some, ← claimKind_ofCode_eq_some, ← keyExists_iff]
  unfold readKey
  rcases ClaimAxle.ofCode a with _ | axle' <;> rcases ClaimKind.ofCode k with _ | kind'
  case some.some =>
    simp only [Option.some.injEq]
    split_ifs with h
    · rw [Option.some.injEq, Prod.mk.injEq]
      constructor
      · rintro ⟨rfl, rfl⟩; exact ⟨rfl, rfl, h⟩
      · rintro ⟨ha, hk, -⟩; exact ⟨ha, hk⟩
    · simp only [false_iff]
      rintro ⟨rfl, rfl, hkey⟩
      exact h hkey
  all_goals simp

/-! ## The checks of a CLAIM -/

theorem valueInRange_iff (axle : ClaimAxle) (kind : ClaimKind) (v : Int) : valueInRange axle kind v = true ↔
    (if kind = .slew then 1 ≤ v ∧ v ≤ 16000
     else if axle = .total then -32000 ≤ v ∧ v ≤ 32000
     else -16000 ≤ v ∧ v ≤ 16000) := by
  cases kind <;> cases axle <;>
    simp [valueInRange, Config.maxAxleTorque, Config.maxTotalTorque]

/-- The first two checks of a CLAIM that reads its fields from a frame (R7, R8). -/
theorem claimInRange_iff (f : Frame) (axle : ClaimAxle) (kind : ClaimKind) : ClaimInRange f axle kind ↔
    readKey (f.byteAt 0) (f.byteAt 1) = some (axle, kind)
      ∧ (valueInRange axle kind (f.signedAt 2) && decide (f.natAt 4 ≤ Config.maxLifetime)) = true := by
  simp only [ClaimInRange, Bool.and_eq_true, decide_eq_true_eq, valueInRange_iff, Config.maxLifetime]
  tauto

/-- A value that the envelope test stores (R9). -/
theorem claimTest_of_stores {c : ConfigStore} {axle : ClaimAxle} {kind : ClaimKind} {x v : Int} {clamped : Bool}
    (h : EnvelopeStores c axle kind x v clamped) : claimTest c.envelope c.policy axle kind x = some (v, clamped) := by
  cases kind
  case slew => obtain ⟨rfl, rfl⟩ := h; rfl
  all_goals
    simp only [EnvelopeStores, reduceCtorEq, if_false] at h
    simp only [claimTest, envelopeTest]
    split_ifs at h ⊢
    · obtain ⟨ha, rfl, rfl⟩ := h; rw [ha]; rfl
    · obtain ⟨ha, rfl, rfl⟩ := h; rw [ha]; rfl
    · obtain ⟨rfl, rfl⟩ := h; rfl

/-- A value that the envelope test refuses (R9). -/
theorem claimTest_of_refuses {c : ConfigStore} {axle : ClaimAxle} {kind : ClaimKind} {x : Int}
    (h : EnvelopeRefuses c axle kind x) : claimTest c.envelope c.policy axle kind x = none := by
  cases kind
  case slew => exact absurd h id
  all_goals
    simp only [EnvelopeRefuses, reduceCtorEq, if_false] at h
    simp only [claimTest, envelopeTest]
    split_ifs at h ⊢
    · rw [h]; rfl
    · rw [h.2]; rfl
    · exact absurd h.1 ‹_›

section
variable {p : MasterId} {f : Frame} {s : State} {axle : ClaimAxle} {kind : ClaimKind} {v : Int} {clamped : Bool}

/-- A CLAIM that passes its first two checks is put to the envelope test (R9). -/
theorem judgeClaim_refused (hs : s.alloc.state ≠ .unconfigured) (hr : ClaimInRange f axle kind)
    (he : EnvelopeRefuses s.config axle kind (f.signedAt 2)) : judgeClaim p (readClaim f) s = .error .outsideEnvelope := by
  obtain ⟨hkey, hrange⟩ := (claimInRange_iff f axle kind).mp hr
  simp [judgeClaim, hs, hkey, hrange, claimTest_of_refuses he]

/-- A CLAIM that passes its first three checks is judged by the entry that it stores (R11, R12). -/
theorem judgeClaim_tested (hs : s.alloc.state ≠ .unconfigured) (hr : ClaimInRange f axle kind)
    (he : EnvelopeStores s.config axle kind (f.signedAt 2) v clamped) :
    judgeClaim p (readClaim f) s = judgeStorage p s (claimStored p f axle kind v clamped) := by
  obtain ⟨hkey, hrange⟩ := (claimInRange_iff f axle kind).mp hr
  simp [judgeClaim, hs, hkey, hrange, claimTest_of_stores he, claimEntry, claimStored]

theorem judgeClaim_badField (hs : s.alloc.state ≠ .unconfigured) (hr : ∀ axle kind, ¬ ClaimInRange f axle kind) :
    judgeClaim p (readClaim f) s = .error .badField := by
  unfold judgeClaim
  rw [if_neg hs]
  split
  · rfl
  · next axle kind hkey =>
    have hrange := mt (fun h => (claimInRange_iff f axle kind).mpr ⟨hkey, h⟩) (hr axle kind)
    rw [if_pos (by rw [Bool.eq_false_iff.mpr hrange]; rfl)]

/-- A CLAIM for a new key is stored while a master place is free (R12). -/
theorem judgeStorage_new {e : ClaimEntry} (h : entriesUnder s.table e.source e.axle e.kind = []) :
    judgeStorage p s e = if 12 ≤ masterCount s.table then .error .tableFull else .ok e := by
  simp [judgeStorage, findClaim_eq_head?, h, Config.masterClaims]

/-- A CLAIM for a key with an entry is refused where it loosens it under TIGHTEN (R11). -/
theorem judgeStorage_old {e old : ClaimEntry} (h : entriesUnder s.table e.source e.axle e.kind = [old]) :
    judgeStorage p s e = if replacementOf s.config.policy p = .tighten && !atLeastAsTight e.kind e.value old.value then
      .error .looser else .ok e := by
  simp [judgeStorage, findClaim_eq_head?, h]

/-! ## CLAIM -/

theorem decodeRequest_claim (p : MasterId) {f : Frame} (h : f.kind = Kind.claim) : decodeRequest p f = .claim p := by
  unfold decodeRequest; rw [h]; rfl

/-- A CLAIM that its checks refuse answers the refusal and leaves the state as it was (R162). -/
theorem exec_claim_refused (h : Ready p f s) (hk : f.kind = 0x31#8) {c : ResultCode}
    (hj : judgeClaim p (readClaim f) s = .error c) :
    exec (.claim p) s = .next (answered p f [c.code] (taken p s)) := by
  have hj' : judgeClaim p (readClaim f) (taken p s) = .error c := by
    rw [← hj]; simp [judgeClaim, judgeStorage]
  rw [exec_taken h (decodeRequest_claim p hk)]
  simp only [ownerOf, claimOwner, hj']
  rfl

/-- A CLAIM that passes its checks stores its entry and answers its value (R13). -/
theorem exec_claim_stored (h : Ready p f s) (hk : f.kind = 0x31#8)
    (hj : judgeClaim p (readClaim f) s = .ok (claimStored p f axle kind v clamped)) :
    exec (.claim p) s = .next (answered p f ((if clamped then 0x01#8 else 0x00#8) :: signedBytes v)
      { taken p s with
        table := entriesNotUnder s.table p.source axle kind ++ [claimStored p f axle kind v clamped] }) := by
  have hj' : judgeClaim p (readClaim f) (taken p s) = .ok (claimStored p f axle kind v clamped) := by
    rw [← hj]; simp [judgeClaim, judgeStorage]
  rw [exec_taken h (decodeRequest_claim p hk)]
  simp only [ownerOf, claimOwner, hj', storeClaim, removeClaim_eq, taken_table]
  cases clamped <;> rfl

end

/-- Settles O12: a new key with a master place free. -/
theorem claimStoresANewEntryAtTheEnd : Obligations.ClaimStoresANewEntryAtTheEnd := by
  refine ⟨by decide, fun p f s axle kind v clamped hready hk hs hr he hnil hroom => ?_⟩
  have hj : judgeClaim p (readClaim f) s = .ok (claimStored p f axle kind v clamped) := by
    rw [judgeClaim_tested hs hr he, judgeStorage_new hnil, if_neg (Nat.not_le.mpr hroom)]
  have hexec := exec_claim_stored hready hk hj
  rwa [entriesNotUnder_of_nil hnil] at hexec

theorem atLeastAsTight_iff (kind : ClaimKind) (new old : Int) :
    atLeastAsTight kind new old = true ↔ (if kind = .floor then old ≤ new else new ≤ old) := by
  cases kind <;> simp [atLeastAsTight]

/-- Settles O13: an old key, by the replacement policy of the requesting master. -/
theorem claimReplacesTheEntryUnderItsKey : Obligations.ClaimReplacesTheEntryUnderItsKey := by
  intro p f s axle kind v clamped old policy hready hk hs hr he hold hpolicy
  have hpol : replacementOf s.config.policy p = policy := by rw [hpolicy]; cases p <;> rfl
  have hj : judgeClaim p (readClaim f) s = if policy = .tighten && !atLeastAsTight kind v old.value then
      .error .looser else .ok (claimStored p f axle kind v clamped) := by
    rw [judgeClaim_tested hs hr he, judgeStorage_old (e := claimStored p f axle kind v clamped) hold, hpol]
    rfl
  simp only [← atLeastAsTight_iff]
  constructor
  · rintro (h | h)
    · exact exec_claim_stored hready hk (by rw [hj, h]; rfl)
    · exact exec_claim_stored hready hk (by rw [hj, h]; simp)
  · rintro ⟨h, hloose⟩
    exact exec_claim_refused hready hk (c := .looser) (by rw [hj, h]; simp [hloose])

/-- Settles O14: each refusal at its check. -/
theorem claimRefusalsComeInOrder : Obligations.ClaimRefusalsComeInOrder := by
  refine ⟨fun a k axle kind => ?_, fun p f s hready hk => ⟨fun hs => ?_, fun hs hr => ?_, ?_, ?_⟩⟩
  · rw [readKey_eq_some]
    cases axle <;> cases kind <;> rfl
  · exact exec_claim_refused hready hk (c := .notConfigured) (by rw [judgeClaim, if_pos hs])
  · exact exec_claim_refused hready hk (c := .badField) (judgeClaim_badField hs hr)
  · intro axle kind hs hr he
    exact exec_claim_refused hready hk (c := .outsideEnvelope) (judgeClaim_refused hs hr he)
  · intro axle kind v clamped hs hr he hnil hfull
    refine exec_claim_refused hready hk (c := .tableFull) ?_
    rw [judgeClaim_tested hs hr he, judgeStorage_new hnil, if_pos hfull]

/-! ## RELEASE, RELEASE ALL and LIST CLAIMS -/

theorem decodeRequest_release (p : MasterId) {f : Frame} (h : f.kind = Kind.release) :
    decodeRequest p f = .release p := by
  unfold decodeRequest; rw [h]; rfl

theorem decodeRequest_releaseAll (p : MasterId) {f : Frame} (h : f.kind = Kind.releaseAll) :
    decodeRequest p f = .releaseAll p := by
  unfold decodeRequest; rw [h]; rfl

theorem decodeRequest_listClaims (p : MasterId) {f : Frame} (h : f.kind = Kind.listClaims) :
    decodeRequest p f = .listClaims p := by
  unfold decodeRequest; rw [h]; rfl

/-- The bytes of a listed entry at an index below 16 (R183). -/
def listedEntry (e : ClaimEntry) (i : Nat) : List Byte :=
  [byteOf (i + 16 * e.clamped.toNat + 32 * e.orphaned.toNat + 64 * e.governing.toNat),
    byteOf (e.source.code + 4 * e.axle.code + 16 * e.kind.code)]
    ++ signedBytes e.value ++ [byteOf (e.lifetime.getD 0), e.tag]

theorem bytes_of_lt {i : Nat} (h : i < 16) (e : ClaimEntry) : e.bytes i = listedEntry e i := by
  rw [ClaimEntry.bytes, Nat.mod_eq_of_lt h]; rfl

/-- The listing counts the table's indices on from its start. -/
theorem listedBytes_eq (i : Nat) (t : List ClaimEntry) (h : i + t.length ≤ 16) :
    listedBytes i t = (t.zipIdx i).flatMap fun x => listedEntry x.1 x.2 := by
  induction t generalizing i with
  | nil => rfl
  | cons e t ih =>
    rw [List.length_cons] at h
    rw [listedBytes, bytes_of_lt (by omega), ih (i + 1) (by omega)]
    rfl

theorem take_drop_zipIdx (t : List ClaimEntry) (n i : Nat) :
    (t.zipIdx.drop i).take n = ((t.drop i).take n).zipIdx i := by
  refine List.ext_getElem? fun k => ?_
  simp only [List.getElem?_take, List.getElem?_drop, List.getElem?_zipIdx]
  split <;> simp

/-- The listing from a start index: at most three entries, with their indices in the table (R165). -/
theorem listedBytes_take_drop (t : List ClaimEntry) (h : t.length ≤ 16) (n i : Nat) :
    listedBytes i ((t.drop i).take n) = ((t.zipIdx.drop i).take n).flatMap fun x => listedEntry x.1 x.2 := by
  rw [take_drop_zipIdx]
  by_cases hi : i ≤ t.length
  · exact listedBytes_eq _ _ (by simp; omega)
  · rw [List.drop_of_length_le (by omega), List.take_nil]
    rfl

/-- Settles O15. -/
theorem entriesAreReleasedAndListed : Obligations.EntriesAreReleasedAndListed := by
  refine ⟨⟨fun p f s hready hk => ?_, fun p f s hready hk => ?_⟩, fun p f s hready hk hlen => ?_⟩
  · rw [exec_taken hready (decodeRequest_release p hk)]
    simp only [ownerOf, releaseOwner, findClaim_eq_head?, removeClaim_eq, taken_table]
    refine ⟨fun hn => by simp only [hn]; rfl, fun axle kind hkey => ⟨fun hnil => ?_, fun hne => ?_⟩⟩
    · simp only [hkey, hnil]; rfl
    · simp only [hkey, List.isSome_head?, if_pos hne]; rfl
  · rw [exec_taken hready (decodeRequest_releaseAll p hk), List.countP_eq_length_filter]
    simp only [ownerOf, releaseAllOwner, claimsOf, withoutSource, taken_table]
    rfl
  · rw [exec_taken hready (decodeRequest_listClaims p hk)]
    simp only [ownerOf, listClaimsOwner, taken_table, Config.listedClaims, listedBytes_take_drop _ hlen]
    congr 4
    funext ⟨e, i⟩
    simp only [listedEntry]
    cases e.lifetime <;> rfl

/-! ## Derate intakes -/

/-- The intake of a present value that the envelope test stores (R18). -/
theorem derateIntake_present {a : AxleId} {kind : ClaimKind} {s : State} {x v : Int} {clamped : Bool}
    (hk : kind ≠ .slew) (h : EnvelopeStores s.config a.claimAxle kind x v clamped) :
    derateIntake a kind (.present x) s = raiseBothIf clamped .inverterClaimAdjusted
      { s with table := storeDerate s.table (derateStored a kind v clamped) } := by
  have ht := claimTest_of_stores h
  cases kind
  case slew => exact absurd rfl hk
  all_goals
    simp only [claimTest] at ht
    simp only [derateIntake, ht]
    rfl

theorem derateIntake_refused {a : AxleId} {kind : ClaimKind} {s : State} {x : Int}
    (h : EnvelopeRefuses s.config a.claimAxle kind x) :
    derateIntake a kind (.present x) s = raiseBoth .inverterClaimAdjusted s := by
  have ht := claimTest_of_refuses h
  cases kind
  case slew => exact absurd h id
  all_goals
    simp only [claimTest] at ht
    simp only [derateIntake, ht]

theorem storeDerate_same {t : List ClaimEntry} {e old : ClaimEntry}
    (h : entriesUnder t e.source e.axle e.kind = [old]) (hv : old.value = e.value) (hc : old.clamped = e.clamped) :
    storeDerate t e = t := by
  simp [storeDerate, findClaim_eq_head?, h, hv, hc]

theorem storeDerate_other {t : List ClaimEntry} {e : ClaimEntry} (h : entriesUnder t e.source e.axle e.kind = []
      ∨ ∃ old, entriesUnder t e.source e.axle e.kind = [old] ∧ ¬ (old.value = e.value ∧ old.clamped = e.clamped)) :
    storeDerate t e = entriesNotUnder t e.source e.axle e.kind ++ [e] := by
  rcases h with h | ⟨old, h, hne⟩
  · simp [storeDerate, findClaim_eq_head?, h, storeClaim, removeClaim_eq]
  · have hne' : (decide (old.value = e.value) && decide (old.clamped = e.clamped)) = false := by simpa using hne
    simp [storeDerate, findClaim_eq_head?, h, storeClaim, removeClaim_eq, hne']

/-- Settles O51: each indication, a present value by what the envelope test answers. -/
theorem aDerateIsStoredClearedOrRefused : Obligations.ADerateIsStoredClearedOrRefused := by
  intro a kind s hk
  refine ⟨rfl, rfl, fun x => derateIntake_refused, fun x v clamped hst => ?_⟩
  rw [derateIntake_present hk hst]
  refine ⟨fun old hold hv hc => ?_, fun stored h heq => ?_⟩
  · rw [storeDerate_same (e := derateStored a kind v clamped) hold hv hc]
    rfl
  · rw [storeDerate_other (e := derateStored a kind v clamped) h, heq]
    rfl

end Sys2Proof.Machine
end

section
/-! PROOFS. The act that serves an allocation (O17, O18, O19) and the flags of an allocation (O34). -/

namespace Sys2Proof.Machine

/-! ## Bands and governing marks -/

theorem Band.inverted_iff (b : Band) : b.inverted = true ↔ b.ceiling < b.floor := by
  simp [Band.inverted]

theorem Band.used_of_le {b : Band} (h : b.floor ≤ b.ceiling) : b.used = b :=
  Band.used_of_not_inverted (by simpa [Band.inverted] using h)

/-- An inverted band is pinned to the value nearest zero between its ceiling and its floor (R28). -/
theorem Band.used_of_lt {b : Band} (h : b.ceiling < b.floor) : b.used = ⟨b.pin, b.pin⟩ := by
  rw [Band.used, if_pos ((Band.inverted_iff b).mpr h)]

theorem Band.pin_nearest {b : Band} (h : b.ceiling < b.floor) : b.ceiling ≤ b.pin ∧ b.pin ≤ b.floor
    ∧ ∀ w, b.ceiling ≤ w → w ≤ b.floor → b.pin.natAbs ≤ w.natAbs := by
  unfold Band.pin
  split_ifs
  · exact ⟨by omega, by omega, fun w _ _ => by omega⟩
  · exact ⟨by omega, by omega, fun w _ _ => by omega⟩
  · exact ⟨by omega, by omega, fun w _ _ => by omega⟩

/-- Settles O17. -/
theorem effectiveLimitsAreTheTightestAndInvertedBandsPinned :
    Obligations.EffectiveLimitsAreTheTightestAndInvertedBandsPinned := by
  refine ⟨fun e => ⟨⟨rfl, rfl⟩, ⟨rfl, rfl⟩, ⟨rfl, rfl⟩⟩, fun t c => ⟨fun axle => ⟨?_, ?_⟩, ?_⟩, fun b => ⟨?_, ?_⟩⟩
  · obtain ⟨hbase, hall⟩ := effective_le (kind := .ceiling) (by decide) t axle (baseValue c axle .ceiling)
    exact ⟨hbase, hall, effective_attained t axle .ceiling _⟩
  · obtain ⟨hbase, hall⟩ := le_effective t axle (baseValue c axle .floor)
    exact ⟨hbase, hall, effective_attained t axle .floor _⟩
  · rintro a slew motion rfl rfl
    cases a
    case front =>
      obtain ⟨hbase, hall⟩ := effective_le (kind := .slew) (by decide) t .front (baseValue c .front .slew)
      exact ⟨hbase, hall, effective_attained t .front .slew _⟩
    case rear =>
      obtain ⟨hbase, hall⟩ := effective_le (kind := .slew) (by decide) t .rear (baseValue c .rear .slew)
      exact ⟨hbase, hall, effective_attained t .rear .slew _⟩
  · exact Band.used_of_le
  · intro h
    rw [Band.used_of_lt h]
    exact ⟨rfl, Band.pin_nearest h⟩

/-- An entry governs an edge or slew when it is the frontmost with the winning value and the base value does not win
(R27, R29). -/
theorem governor_eq_some_iff {t : List ClaimEntry} {axle : ClaimAxle} {kind : ClaimKind} {base : Int} {i : Nat}
    {e : ClaimEntry} (he : t[i]? = some e) (ha : e.axle = axle) (hk : e.kind = kind) :
    governor t axle kind base = some i ↔ e.value ≠ base ∧ e.value = effective t axle kind base
      ∧ ∀ j d, j < i → t[j]? = some d → d.axle = axle → d.kind = kind → d.value ≠ e.value := by
  obtain ⟨hi, rfl⟩ := List.getElem?_eq_some_iff.mp he
  unfold governor
  split_ifs with hbase
  · simp only [false_iff]
    rintro ⟨hne, heff, -⟩
    exact hne (heff.trans hbase)
  · simp only [List.findIdx?_eq_some_iff_getElem, Bool.and_eq_true, decide_eq_true_eq]
    constructor
    · rintro ⟨_, ⟨-, heff⟩, hfront⟩
      refine ⟨fun h => hbase (heff.symm.trans h), heff, fun j d hj hd hda hdk hdv => ?_⟩
      obtain ⟨hjt, rfl⟩ := List.getElem?_eq_some_iff.mp hd
      exact hfront j hj ⟨⟨hda, hdk⟩, hdv.trans heff⟩
    · rintro ⟨-, heff, hfront⟩
      refine ⟨hi, ⟨⟨ha, hk⟩, heff⟩, fun j hj hother => ?_⟩
      obtain ⟨⟨hda, hdk⟩, hdv⟩ := hother
      exact hfront j _ hj (List.getElem?_eq_getElem (by omega)) hda hdk (hdv.trans heff.symm)

/-- Settles O18. -/
theorem theFrontmostTightestEntryGoverns : Obligations.TheFrontmostTightestEntryGoverns := by
  refine fun t c => ⟨by simp [markGoverning], fun i e he =>
    ⟨decide (governor t e.axle e.kind (baseValue c e.axle e.kind) = some i), ?_, ?_⟩⟩
  · simp [markGoverning, List.getElem?_mapIdx, he]
  · rw [decide_eq_true_eq, governor_eq_some_iff he rfl rfl]

/-! ## Flags of an allocation -/

/-- The alert unit of a port after an allocation inside which nothing falls. -/
theorem allocate_alert (inp : AllocInput) (s : State) (p : MasterId) :
    ((allocate inp s).master p).alert = allocationAlert inp s p := by
  cases p
  · simp [allocate_demandPort]
  · simp [allocate_stabilityPort]

/-- An entry leaves the table by aging when its lifetime is at most one (R20). -/
theorem ClaimEntry.age_isNone (e : ClaimEntry) : e.age.isNone = e.lifetime.any fun n => n ≤ 1 := by
  unfold ClaimEntry.age
  rcases e.lifetime with _ | n
  · rfl
  · simp only [Option.any_some]
    split_ifs with h <;> simp [h]

theorem lapses_eq (t : List ClaimEntry) (src : Source) :
    lapses t src = t.any fun e => e.source = src && e.lifetime.any fun n => n ≤ 1 := by
  simp only [lapses, ClaimEntry.age_isNone]

theorem AlertUnit.isSet_raiseWhen_flag (u : AlertUnit) (c : Bool) (f g : EventFlag) :
    (u.raiseWhen c f).isSet g = (u.isSet g || (decide (g = f) && c)) := by
  rw [AlertUnit.isSet_raiseWhen, decide_eq_decide.mpr eq_comm]

/-- An allocation reports an inverted band of either axle or of the total (R87). -/
theorem allocationOf_inverted (inp : AllocInput) (s : State) : (allocationOf inp s).inverted
    = [ClaimAxle.front, .rear, .total].any fun x =>
        (bandOf s.table s.config x).ceiling < (bandOf s.table s.config x).floor := by
  simp only [List.any_cons, List.any_nil, Bool.or_false, ← Bool.or_assoc]
  rfl

/-- A hand-off supersedes the record that still waits on an UP link (R100). -/
theorem AxleUnit.supersedes_eq (u : AxleUnit) : u.supersedes = (decide (u.link = .up) && u.slot.isSome) := by
  cases u; rfl

/-- Settles O34: each flag from its own raise. -/
theorem anAllocationRaisesItsFlags : Obligations.AnAllocationRaisesItsFlags := by
  intro inp s p g
  rw [allocate_alert]
  refine ⟨?_, by simp [allocationAlert], by simp [allocationAlert], by simp [allocationAlert]⟩
  simp only [allocationAlert, AlertUnit.isSet_raiseWhen_flag, lapses_eq, allocationOf_inverted, AxleUnit.supersedes_eq]
  simp only [List.any_cons, List.any_nil, Bool.or_false, Bool.and_or_distrib_left, Bool.or_assoc]

/-- Settles O19: the table and the bands by the act, the flag by `anAllocationRaisesItsFlags`. -/
theorem anAllocationAgesTheClaims : Obligations.AnAllocationAgesTheClaims := by
  intro inp s
  refine ⟨?_, allocate_lastBands s inp, fun p => ?_⟩
  · rw [allocate_table, ageClaims]
    congr 1
    funext e
    unfold ClaimEntry.age
    rcases e.lifetime with _ | n
    · rfl
    · by_cases h : n ≤ 1
      · simp only [if_pos h, if_neg (show ¬ 2 ≤ n by omega)]
      · simp only [if_neg h, if_pos (show 2 ≤ n by omega)]
  · obtain ⟨hflag, -⟩ := anAllocationRaisesItsFlags inp s p .claimLapsed
    simpa using hflag

end Sys2Proof.Machine
end

section
/-! PROOFS. The live share (O20), MAP WRITE (O22), HOLD and RESUME (O25). -/

namespace Sys2Proof.Machine

/-! ## The live share -/

theorem AxleState.available_iff (x : AxleState) : x.available = true ↔ x = .online ∨ x = .suspect := by
  cases x <;> decide

/-- A Boolean that says which states of an axle count says whether it is available (R99). -/
theorem AxleState.eq_available {x : AxleState} {b : Bool} (h : b = true ↔ x = .online ∨ x = .suspect) :
    b = x.available := by
  rw [← AxleState.available_iff] at h
  exact Bool.eq_iff_iff.mpr h

/-- The values of share control after an allocation, by the availability of the axles (R43 to R45). -/
theorem allocationActs_liveShare (inp : AllocInput) (s : State) : (allocationActs inp s).liveShare
    = match availability s.front.state.available s.rear.state.available with
      | .both => moveShare s.liveShare (governingShare s inp.load inp.speed) s.config.motion.shareSlew
      | .frontOnly => 1000
      | .rearOnly => 0
      | .neither => s.liveShare := by
  unfold allocationActs
  generalize availability s.front.state.available s.rear.state.available = av
  cases av <;> simp [shareAct, governingShare, mapShare, Config.maxShare]

theorem allocationActs_forced (inp : AllocInput) (s : State) : (allocationActs inp s).forced
    = match availability s.front.state.available s.rear.state.available with
      | .both => .none
      | .frontOnly => .front
      | .rearOnly => .rear
      | .neither => s.forced := by
  unfold allocationActs
  generalize availability s.front.state.available s.rear.state.available = av
  cases av <;> simp [shareAct]

/-- The live share moves by the slew, or to the governing share within reach (R43). -/
theorem moveShare_cases (live g slew : Nat) : (live + slew < g → moveShare live g slew = live + slew)
    ∧ (g + slew < live → moveShare live g slew = live - slew)
    ∧ (g ≤ live + slew → live ≤ g + slew → moveShare live g slew = g) := by
  unfold moveShare
  refine ⟨fun h => if_pos h, fun h => ?_, fun h1 h2 => ?_⟩
  · rw [if_neg (by omega), if_pos h]
  · rw [if_neg (by omega), if_neg (by omega)]

/-- Settles O20. -/
theorem anAllocationMovesOrForcesTheLiveShare : Obligations.AnAllocationMovesOrForcesTheLiveShare := by
  intro inp s front rear g hf hr hg
  obtain rfl := AxleState.eq_available hf
  obtain rfl := AxleState.eq_available hr
  have hgov : governingShare s inp.load inp.speed = g := hg.symm
  rw [allocate_lastGoverning, allocate_liveShare, allocate_forced, allocationActs_liveShare, allocationActs_forced, hgov]
  refine ⟨rfl, fun h1 h2 => ?_, fun h1 h2 => ?_, fun h1 h2 => ?_, fun h1 h2 => ?_⟩
  all_goals rw [h1, h2]
  · exact ⟨rfl, moveShare_cases _ _ _⟩
  all_goals exact ⟨rfl, rfl⟩

/-! ## MAP WRITE -/

/-- The value at a place of a list of two-byte fields, from its two bytes. -/
theorem unsignedList_getElem? (l : List Byte) (i : Nat) (h : 2 * i + 1 < l.length) :
    (unsignedList l)[i]? = some (l.getD (2 * i) 0 ++ l.getD (2 * i + 1) 0).toNat := by
  induction l using unsignedList.induct generalizing i with
  | case1 hi lo rest ih =>
    cases i with
    | zero => rfl
    | succ i =>
      simp only [List.length_cons] at h
      simp only [unsignedList, List.getElem?_cons_succ, ih i (by omega)]
      rfl
  | case2 l hshort =>
    rcases l with _ | ⟨a, _ | ⟨b, rest⟩⟩
    · simp at h
    · simp at h
    · exact absurd rfl (hshort a b rest)

theorem unsignedList_length (l : List Byte) : (unsignedList l).length = l.length / 2 := by
  induction l using unsignedList.induct with
  | case1 hi lo rest ih => simp only [unsignedList, List.length_cons, ih]; omega
  | case2 l hshort =>
    rcases l with _ | ⟨a, _ | ⟨b, rest⟩⟩
    · rfl
    · simp [unsignedList]
    · exact absurd rfl (hshort a b rest)

/-- The values that a MAP WRITE carries are the two-byte fields after its three numbers (R183). -/
theorem readMapWrite_values {f : Frame} {count : Nat} (hlen : f.payload.length = 3 + 2 * count) :
    (readMapWrite f).values.length = count
      ∧ ∀ i, i < count → (readMapWrite f).values[i]? = some (f.unsignedAt (3 + 2 * i)) := by
  refine ⟨?_, fun i hi => ?_⟩
  · simp only [unsignedList_length, List.length_drop]; omega
  · simp only [unsignedList_getElem? _ i (show 2 * i + 1 < (f.payload.drop 3).length by simp; omega)]
    simp [Frame.unsignedAt, Frame.halfAt, Frame.byteAt, List.getD_eq_getElem?_getD, Nat.add_assoc]

/-- What a MAP WRITE's checks judge, field by field (R36). -/
def MapWriteLegal (f : Frame) : Prop :=
  f.natAt 0 ≤ 7 ∧ f.natAt 1 ≤ 7 ∧ 1 ≤ f.natAt 2 ∧ f.natAt 2 ≤ 8 ∧ f.natAt 1 + f.natAt 2 ≤ 8
    ∧ f.payload.length = 3 + 2 * f.natAt 2 ∧ ∀ i, i < f.natAt 2 → f.unsignedAt (3 + 2 * i) ≤ 1000

theorem mapWriteValid_iff (f : Frame) :
    mapWriteValid (readMapWrite f) f.payload.length = true ↔ MapWriteLegal f := by
  have hvalues : f.payload.length = 3 + 2 * f.natAt 2 →
      ((∀ v ∈ (readMapWrite f).values, v ≤ 1000) ↔ ∀ i, i < f.natAt 2 → f.unsignedAt (3 + 2 * i) ≤ 1000) := by
    intro hlen
    obtain ⟨hn, hget⟩ := readMapWrite_values hlen
    constructor
    · exact fun h i hi => h _ (List.mem_of_getElem? (hget i hi))
    · intro h v hv
      obtain ⟨i, hi, rfl⟩ := List.mem_iff_getElem.mp hv
      have := hget i (hn ▸ hi)
      rw [List.getElem?_eq_getElem hi, Option.some.injEq] at this
      rw [this]
      exact h i (hn ▸ hi)
  simp only [mapWriteValid, MapWriteLegal, mapSide, Config.maxShare, Bool.and_eq_true, decide_eq_true_eq,
    List.all_eq_true]
  constructor
  · rintro ⟨⟨⟨⟨⟨h1, h2⟩, h3, h4⟩, h5⟩, h6⟩, h7⟩
    exact ⟨by omega, by omega, h3, h4, h5, h6, (hvalues h6).mp h7⟩
  · rintro ⟨h1, h2, h3, h4, h5, h6, h7⟩
    exact ⟨⟨⟨⟨⟨by omega, by omega⟩, h3, h4⟩, h5⟩, h6⟩, (hvalues h6).mpr h7⟩

theorem readCell_eq (m : Vector Nat 64) {r c : Nat} (hr : r < 8) (hc : c < 8) :
    readCell m r c = m[cellIndex r c]'(cellIndex_lt hr hc) := by
  simp [readCell, cellIndex_lt hr hc]

/-- A run of cells written within one row (R36). -/
theorem readCell_writeCells (m : Vector Nat 64) {row column r c : Nat} {vs : List Nat} (hcol : column + vs.length ≤ 8)
    (hr : r < 8) (hc : c < 8) : readCell (writeCells m (cellIndex row column) vs) r c
      = if r = row ∧ column ≤ c ∧ c < column + vs.length then vs.getD (c - column) 0 else readCell m r c := by
  rw [readCell_eq _ hr hc, readCell_eq _ hr hc, writeCells_get _ _ _ _ (cellIndex_lt hr hc)]
  have hplace : (cellIndex row column ≤ cellIndex r c ∧ cellIndex r c < cellIndex row column + vs.length)
      ↔ (r = row ∧ column ≤ c ∧ c < column + vs.length) := by
    simp only [cellIndex, mapSide]; omega
  simp only [hplace]
  split_ifs with h
  · obtain ⟨rfl, -⟩ := h
    congr 1
    simp only [cellIndex, mapSide]; omega
  · rfl

/-- Settles O22. -/
theorem mapWriteWritesTheCellsItNames : Obligations.MapWriteWritesTheCellsItNames := by
  rintro f s row column count hready hk rfl rfl rfl
  rw [exec_taken hready (decodeRequest_mapWrite .demand hk)]
  simp only [ownerOf, onDemandLink, mapWriteOwner]
  refine ⟨fun hlegal => ?_, fun hillegal => ?_⟩
  · rw [if_pos ((mapWriteValid_iff f).mpr hlegal)]
    obtain ⟨-, -, -, -, hcol, hlen, -⟩ := hlegal
    obtain ⟨hn, hget⟩ := readMapWrite_values hlen
    refine ⟨_, rfl, fun r c hr hc => ?_⟩
    rw [taken_map, readCell_writeCells _ (by rw [hn]; exact hcol) hr hc, hn]
    split_ifs with h
    · rw [List.getD_eq_getElem?_getD, hget _ (by omega)]
      rfl
    · rfl
  · rw [if_neg (mt (mapWriteValid_iff f).mp hillegal)]
    rfl

/-! ## HOLD and RESUME -/

theorem decodeRequest_hold (p : MasterId) {f : Frame} (h : f.kind = Kind.hold) : decodeRequest p f = .hold p := by
  unfold decodeRequest; rw [h]; rfl

theorem decodeRequest_resume (p : MasterId) {f : Frame} (h : f.kind = Kind.resume) :
    decodeRequest p f = .resume p := by
  unfold decodeRequest; rw [h]; rfl

theorem holdValid_iff (f : Frame) :
    holdValid (readHold f) = true ↔ f.byteAt 0 = 0#8 ∨ (f.byteAt 0 = 1#8 ∧ f.unsignedAt 1 ≤ 1000) := by
  simp [holdValid, Config.maxShare]

/-- Settles O25. -/
theorem holdPushesAndResumePopsTheTopRecord : Obligations.HoldPushesAndResumePopsTheTopRecord := by
  refine ⟨by decide, fun p f s hready hk => ?_, fun p f s hready hk => ?_⟩
  · rw [exec_taken hready (decodeRequest_hold p hk)]
    simp only [ownerOf, holdOwner, taken_alloc, taken_holds, taken_liveShare]
    refine ⟨fun hs => by simp only [if_pos hs]; rfl, fun hs => ⟨fun hbad => ?_, fun share captured hgood => ?_⟩⟩
    · have hv : (!holdValid (readHold f)) = true := by
        rw [Bool.not_eq_true', Bool.eq_false_iff, ne_eq, holdValid_iff, not_or]
        exact hbad
      simp only [if_neg hs, if_pos hv]; rfl
    · have hv : ¬ (!holdValid (readHold f)) = true := by
        rw [Bool.not_eq_true', Bool.not_eq_false, holdValid_iff]
        tauto
      have hrecord : holdRecord p (readHold f) s.liveShare = ⟨p.holder, .master, share, captured, f.byteAt 3⟩ := by
        rcases hgood with ⟨h0, -, rfl, rfl⟩ | ⟨h0, rfl, rfl⟩ <;> simp [holdRecord, h0]
      simp only [if_neg hs, if_neg hv, hrecord]
      refine ⟨fun hfull => ?_, fun hroom => ?_⟩
      · rw [if_pos (show Config.masterHolds ≤ masterHolds s.holds from hfull)]; rfl
      · rw [if_neg (show ¬ Config.masterHolds ≤ masterHolds s.holds from Nat.not_le.mpr hroom)]; rfl
  · rw [exec_taken hready (decodeRequest_resume p hk)]
    simp only [ownerOf, resumeOwner, taken_holds]
    refine ⟨fun hnil => by simp only [hnil]; rfl, fun below top htop => ?_⟩
    simp only [htop, List.getLast?_concat, List.dropLast_concat, List.length_append, List.length_singleton,
      Nat.add_sub_cancel]
    refine ⟨fun hother => ?_, fun hown => ?_⟩
    · rw [if_neg]
      · rfl
      · rw [Bool.and_eq_true, decide_eq_true_eq, decide_eq_true_eq]
        rintro ⟨ho, hh⟩
        rcases hother with h | h
        · rw [ho] at h; cases h
        · exact h hh
    · rw [if_pos (by simpa using hown)]
      rfl

end Sys2Proof.Machine
end

section
/-! PROOFS. The arithmetic of an allocation: the split (O28), the placement (O29), the commands (O30), the records formed
(O31) and their layouts (O32). -/

namespace Sys2Proof.Machine

/-! ## The split -/

/-- A quotient truncated toward zero, for a value that is not negative (R78). -/
theorem tdiv_thousand_of_nonneg {x : Int} (h : 0 ≤ x) : 1000 * x.tdiv 1000 ≤ x ∧ x < 1000 * x.tdiv 1000 + 1000 := by
  rw [Int.tdiv_eq_ediv_of_nonneg h]
  omega

/-- A quotient truncated toward zero, for a value that is not positive (R78). -/
theorem tdiv_thousand_of_nonpos {x : Int} (h : x ≤ 0) : x ≤ 1000 * x.tdiv 1000 ∧ 1000 * x.tdiv 1000 - 1000 < x := by
  have hneg := tdiv_thousand_of_nonneg (Int.neg_nonneg_of_nonpos h)
  rw [Int.neg_tdiv] at hneg
  omega

/-- Settles O28. -/
theorem theSplitSumsToTheClippedTotal : Obligations.TheSplitSumsToTheClippedTotal := by
  intro total share
  refine ⟨by simp only [rearSplit]; omega, fun h => ?_, fun h => ?_, ⟨?_, ?_⟩, ⟨rfl, rfl⟩, ⟨rfl, rfl⟩, ⟨rfl, rfl⟩⟩
  · exact tdiv_thousand_of_nonneg (Int.mul_nonneg h (Int.natCast_nonneg share))
  · exact tdiv_thousand_of_nonpos (Int.mul_nonpos_of_nonpos_of_nonneg h (Int.natCast_nonneg share))
  · exact Int.mul_tdiv_cancel total (by decide)
  · simp [frontSplit]

/-! ## The placement -/

theorem Band.clamp_eq (b : Band) (v : Int) : b.clamp v = max b.used.floor (min b.used.ceiling v) := by
  have h := b.used_floor_le
  unfold Band.clamp
  split_ifs <;> omega

theorem Band.clamp_of_above {b : Band} {v : Int} (h : b.used.ceiling < v) : b.clamp v = b.used.ceiling := if_pos h

theorem Band.clamp_of_below {b : Band} {v : Int} (h : v < b.used.floor) : b.clamp v = b.used.floor := by
  have := b.used_floor_le
  rw [Band.clamp, if_neg (by omega), if_pos h]

/-- What a value in its band, or out of it on one side, is marked with. -/
theorem Band.above_eq_false {b : Band} {v : Int} (h : v ≤ b.used.ceiling) : b.above v = false := by
  simpa [Band.above] using h

theorem Band.below_eq_false {b : Band} {v : Int} (h : b.used.floor ≤ v) : b.below v = false := by
  simpa [Band.below] using h

theorem Band.above_eq_true {b : Band} {v : Int} (h : b.used.ceiling < v) : b.above v = true := by
  simpa [Band.above] using h

theorem Band.below_eq_true {b : Band} {v : Int} (h : v < b.used.floor) : b.below v = true := by
  simpa [Band.below] using h

@[simp] theorem spilled_zero (q : Policy) : spilled q 0 = 0 := rfl

/-- An excess above a ceiling is moved or dropped by the ceiling setting (R81). -/
theorem spilled_of_pos {q : Policy} {x : Int} (h : 0 < x) :
    spilled q x = if q.ceilingExcess = .spill then x else 0 := if_pos h

/-- An excess below a floor is moved or dropped by the floor setting (R81). -/
theorem spilled_of_neg {q : Policy} {x : Int} (h : x < 0) :
    spilled q x = if q.floorExcess = .spill then x else 0 := by
  rw [spilled, if_neg (by omega), if_pos h]

/-- The five passes, with the values between them named (R80). -/
theorem place_both {q : Policy} {fb rb : Band} {f0 r0 f1 r1 r2 f2 : Int} (h1 : fb.clamp f0 = f1)
    (h2 : r0 + spilled q (f0 - f1) = r1) (h3 : rb.clamp r1 = r2) (h4 : f1 + spilled q (r1 - r2) = f2) :
    place .both q fb rb f0 r0 =
      { front := fb.clamp f2
        rear := r2
        frontAbove := fb.above f0 || fb.above f2
        frontBelow := fb.below f0 || fb.below f2
        rearAbove := rb.above r1
        rearBelow := rb.below r1 } := by
  subst h1 h2 h3 h4; rfl

/-- A front target out of its band, the rear one ending in its own: the rear takes what moves (R80). -/
theorem place_frontExcess {q : Policy} {fb rb : Band} {f0 r0 f1 r1 : Int} {above below : Bool} (h1 : fb.clamp f0 = f1)
    (ha : fb.above f0 = above) (hb : fb.below f0 = below) (h2 : r0 + spilled q (f0 - f1) = r1)
    (hr : rb.used.floor ≤ r1 ∧ r1 ≤ rb.used.ceiling) :
    place .both q fb rb f0 r0 = ⟨f1, r1, above, below, false, false⟩ := by
  obtain ⟨hlow, hhigh⟩ : fb.used.floor ≤ f1 ∧ f1 ≤ fb.used.ceiling := h1 ▸ fb.clamp_mem f0
  rw [place_both h1 h2 (Band.clamp_of_mem hr) (show f1 + spilled q (r1 - r1) = f1 by simp), Band.clamp_of_mem ⟨hlow, hhigh⟩,
    Band.above_eq_false hhigh, Band.below_eq_false hlow, Band.above_eq_false hr.2, Band.below_eq_false hr.1,
    Bool.or_false, Bool.or_false, ha, hb]

/-- A front target in its band and a rear one out of it: the front takes what moves, where it ends in its band (R80). -/
theorem place_rearExcess {q : Policy} {fb rb : Band} {f0 r0 r2 f2 : Int} {above below : Bool}
    (hf : fb.used.floor ≤ f0 ∧ f0 ≤ fb.used.ceiling) (h3 : rb.clamp r0 = r2) (ha : rb.above r0 = above)
    (hb : rb.below r0 = below) (h4 : f0 + spilled q (r0 - r2) = f2)
    (hf2 : fb.used.floor ≤ f2 ∧ f2 ≤ fb.used.ceiling) :
    place .both q fb rb f0 r0 = ⟨f2, r2, false, false, above, below⟩ := by
  rw [place_both (Band.clamp_of_mem hf) (show r0 + spilled q (f0 - f0) = r0 by simp) h3 h4, Band.clamp_of_mem hf2,
    Band.above_eq_false hf.2, Band.below_eq_false hf.1, Band.above_eq_false hf2.2, Band.below_eq_false hf2.1,
    ha, hb]
  rfl

theorem place_both_mem (q : Policy) (fb rb : Band) (f0 r0 : Int) :
    (fb.used.floor ≤ (place .both q fb rb f0 r0).front ∧ (place .both q fb rb f0 r0).front ≤ fb.used.ceiling)
      ∧ (rb.used.floor ≤ (place .both q fb rb f0 r0).rear ∧ (place .both q fb rb f0 r0).rear ≤ rb.used.ceiling) :=
  ⟨fb.clamp_mem _, rb.clamp_mem _⟩

/-- Settles O29: the passes in one equation, and each single excess by it. -/
theorem targetsArePlacedWithinTheBands : Obligations.TargetsArePlacedWithinTheBands := by
  intro q fb rb f0 r0
  have hfle := fb.used_floor_le
  have hrle := rb.used_floor_le
  refine ⟨?_, place_both_mem q fb rb f0 r0, ?_, ?_, ?_, ?_, ?_, ?_⟩
  · rintro moved f1 r1 r2 f2 hmoved rfl rfl rfl rfl
    have hm : moved = spilled q := funext hmoved
    subst hm
    rw [place_both (Band.clamp_eq fb f0) rfl (Band.clamp_eq rb _) rfl, Band.clamp_eq]
    simp only [Band.above, Band.below, Bool.decide_or]
  · intro h1 h2 h3 h4
    exact place_frontExcess (Band.clamp_of_mem ⟨h1, h2⟩) (Band.above_eq_false h2) (Band.below_eq_false h1)
      (show r0 + spilled q (f0 - f0) = r0 by simp) ⟨h3, h4⟩
  · intro h1 h2 h3
    have hpos := spilled_of_pos (q := q) (show 0 < f0 - fb.used.ceiling by omega)
    have hbelow := Band.below_eq_false (b := fb) (v := f0) (by omega)
    refine ⟨fun hq h4 => ?_, fun hq => ?_⟩
    · exact place_frontExcess (Band.clamp_of_above h1) (Band.above_eq_true h1) hbelow (by rw [hpos, if_pos hq]) ⟨by omega, h4⟩
    · exact place_frontExcess (Band.clamp_of_above h1) (Band.above_eq_true h1) hbelow (by rw [hpos, hq]; simp) ⟨h2, h3⟩
  · intro h1 h2 h3
    have hneg := spilled_of_neg (q := q) (show f0 - fb.used.floor < 0 by omega)
    have habove := Band.above_eq_false (b := fb) (v := f0) (by omega)
    refine ⟨fun hq h4 => ?_, fun hq => ?_⟩
    · exact place_frontExcess (Band.clamp_of_below h1) habove (Band.below_eq_true h1) (by rw [hneg, if_pos hq]) ⟨h4, by omega⟩
    · exact place_frontExcess (Band.clamp_of_below h1) habove (Band.below_eq_true h1) (by rw [hneg, hq]; simp) ⟨h2, h3⟩
  · intro h1 h2 h3
    have hpos := spilled_of_pos (q := q) (show 0 < r0 - rb.used.ceiling by omega)
    have hbelow := Band.below_eq_false (b := rb) (v := r0) (by omega)
    refine ⟨fun hq h4 => ?_, fun hq => ?_⟩
    · exact place_rearExcess ⟨h1, h2⟩ (Band.clamp_of_above h3) (Band.above_eq_true h3) hbelow (by rw [hpos, if_pos hq]) ⟨by omega, h4⟩
    · exact place_rearExcess ⟨h1, h2⟩ (Band.clamp_of_above h3) (Band.above_eq_true h3) hbelow (by rw [hpos, hq]; simp) ⟨h1, h2⟩
  · intro h1 h2 h3
    have hneg := spilled_of_neg (q := q) (show r0 - rb.used.floor < 0 by omega)
    have habove := Band.above_eq_false (b := rb) (v := r0) (by omega)
    refine ⟨fun hq h4 => ?_, fun hq => ?_⟩
    · exact place_rearExcess ⟨h1, h2⟩ (Band.clamp_of_below h3) habove (Band.below_eq_true h3) (by rw [hneg, if_pos hq]) ⟨h4, by omega⟩
    · exact place_rearExcess ⟨h1, h2⟩ (Band.clamp_of_below h3) habove (Band.below_eq_true h3) (by rw [hneg, hq]; simp) ⟨h1, h2⟩
  · simp only [place, Band.clamp_eq, Band.above, Band.below, and_self]

/-! ## The commands -/

/-- Settles O30: a command is the moved value brought into the band. -/
theorem commandsEnterTheBandAndFollowTheSlew : Obligations.CommandsEnterTheBandAndFollowTheSlew := by
  intro b p t slew hslew
  have hle := b.used_floor_le
  refine ⟨b.clamp_mem _, fun h1 h2 => ?_, rfl⟩
  simp only [command, if_true, Band.clamp_eq, slewMove]
  refine ⟨fun h => ?_, fun h => ?_, fun h3 h4 => ⟨fun h => ?_, fun h => ?_, fun h5 h6 => ?_⟩⟩
  all_goals split_ifs <;> omega

/-! ## The records formed -/

/-- The limit code with its conditions written out (R86). -/
theorem limitCode_eq (available : Bool) (b : Band) (cmd t : Int) (above below : Bool) :
    limitCode available b cmd t above below
      = if available = false then .standby else if b.ceiling < b.floor then .inverted
        else if cmd ≠ t then .slew else if above then .ceiling else if below then .floor else .free := by
  simp only [limitCode, Bool.not_eq_true', Band.inverted_iff]

theorem availability_eq (front rear : Bool) : availability front rear
    = if front then (if rear then .both else .frontOnly) else (if rear then .rearOnly else .neither) := by
  cases front <;> cases rear <;> rfl

/-- Settles O31: what `formAllocation` forms, with the availability of each axle named. -/
theorem anAllocationFormsItsRecords : Obligations.AnAllocationFormsItsRecords := by
  rintro inp s al bands av pl fa ra fc rc hal hbands hfa hra hav hpl hfc hrc
  obtain rfl := AxleState.eq_available hfa
  obtain rfl := AxleState.eq_available hra
  rw [← availability_eq] at hav
  rw [allocate_liveShare] at hpl ⊢
  subst hal hbands hav hpl hfc hrc
  refine ⟨Band.clamp_eq _ _, ?_, rfl, rfl, ?_⟩
  · simp only [allocationOf, formAllocation]
    omega
  · simp only [allocationOf, formAllocation, axleResult, limitCode_eq, carriedUnplaced, Config.maxCarriedUnplaced]

/-! ## The layouts -/

theorem byteOf_toNat (n : Nat) : (byteOf n).toNat = n % 256 := BitVec.toNat_ofNat n 8

/-- A two-byte field, its high byte first (R176). -/
theorem halfBytes_spec (h : Half) :
    ∃ hi lo : Byte, halfBytes h = [hi, lo] ∧ 256 * hi.toNat + lo.toNat = h.toNat := by
  refine ⟨_, _, rfl, ?_⟩
  have hlt := h.isLt
  simp only [BitVec.extractLsb'_toNat, Nat.shiftRight_eq_div_pow]
  omega

/-- Settles O32. -/
theorem recordsTravelInTheirLayouts : Obligations.RecordsTravelInTheirLayouts := by
  refine ⟨⟨byteOf_toNat, fun n => ?_, fun v => ?_, halfBytes_spec⟩, by decide, fun r => ⟨rfl, ?_⟩, fun r => ⟨rfl, rfl, rfl⟩⟩
  · obtain ⟨hi, lo, h, hv⟩ := halfBytes_spec (BitVec.ofNat 16 n)
    exact ⟨hi, lo, h, by rw [hv, BitVec.toNat_ofNat]⟩
  · obtain ⟨hi, lo, h, hv⟩ := halfBytes_spec (BitVec.ofInt 16 v)
    refine ⟨hi, lo, h, ?_⟩
    rw [BitVec.toNat_ofInt] at hv
    omega
  · cases hm : r.mode <;> simp [CommandRecord.frame, CommandRecord.bytes, hm, Mode.code, Kind.command, byteOf]

end Sys2Proof.Machine
end

section
/-! PROOFS. What an allocation inside which nothing falls hands over: the COMMAND records (O33), the result record and
what stands (O35). -/

namespace Sys2Proof.Machine

/-! ## COMMAND records -/

/-- A COMMAND record formed for an axle as it is available is taken as it is (R99). -/
theorem AxleUnit.screen_commandRecord (u : AxleUnit) (n : Byte) (b : Band) (v : Int) :
    u.screen (commandRecord n u.state.available b v) = commandRecord n u.state.available b v := by
  unfold AxleUnit.screen
  cases h : u.state.available <;> rfl

/-- On an UP link an idle transmitter sends a record at once (R101). -/
theorem AxleUnit.handoff_idle {u : AxleUnit} {r : CommandRecord} (hs : u.screen r = r) (hl : u.link = .up)
    (ht : u.tx = .idle) :
    u.handoff r = { u with lastCommanded := r.torque, tx := .sending r false, slot := none } := by
  simp [AxleUnit.handoff, AxleUnit.takePending, hs, hl, ht]

/-- On an UP link a record waits for a busy transmitter (R100). -/
theorem AxleUnit.handoff_busy {u : AxleUnit} {r : CommandRecord} (hs : u.screen r = r) (hl : u.link = .up)
    (ht : u.tx ≠ .idle) : u.handoff r = { u with lastCommanded := r.torque, slot := some r } := by
  rcases h : u.tx with _ | ⟨g, b⟩ | _
  · exact absurd h ht
  all_goals simp [AxleUnit.handoff, AxleUnit.takePending, hs, hl, h]

/-- On a link that is not UP a record is discarded (R103). -/
theorem AxleUnit.handoff_notUp {u : AxleUnit} {r : CommandRecord} (hs : u.screen r = r) (hl : u.link ≠ .up) :
    u.handoff r = { u with lastCommanded := r.torque } := by
  simp [AxleUnit.handoff, hs, hl]

/-- Each axle takes the record of an allocation as the allocation formed it. -/
theorem allocate_axle (inp : AllocInput) (s : State) (a : AxleId) :
    (allocate inp s).axle a = (s.axle a).handoff ((allocationOf inp s).commandOf a)
      ∧ (s.axle a).screen ((allocationOf inp s).commandOf a) = (allocationOf inp s).commandOf a := by
  cases a
  · exact ⟨allocate_front s inp, s.front.screen_commandRecord _ _ _⟩
  · exact ⟨allocate_rear s inp, s.rear.screen_commandRecord _ _ _⟩

/-- A DRIVE record for an axle that is not available is taken as STANDBY 0 (R99). -/
theorem AxleUnit.handoff_standby {u : AxleUnit} {r : CommandRecord} (hu : u.state = .offline ∨ u.state = .rejoining)
    (hr : r.mode = .drive) : u.handoff r = u.handoff { r with mode := .standby, torque := 0 } := by
  have hn : u.state.available = false := by rcases hu with h | h <;> rw [h] <;> rfl
  simp [AxleUnit.handoff, AxleUnit.screen, hn, CommandRecord.toStandby, hr]

/-- Settles O33. -/
theorem commandRecordsReachTheAxlePorts : Obligations.CommandRecordsReachTheAxlePorts := by
  refine ⟨fun inp s a r hr => ?_, fun u r => AxleUnit.handoff_standby⟩
  obtain ⟨haxle, hscreen⟩ := allocate_axle inp s a
  have hr' : (allocationOf inp s).commandOf a = r := by rw [hr]; cases a <;> rfl
  rw [hr'] at haxle hscreen
  rw [haxle]
  exact ⟨AxleUnit.handoff_idle hscreen, AxleUnit.handoff_busy hscreen, AxleUnit.handoff_notUp hscreen⟩

/-! ## The result record at the master ports -/

/-- A result record takes the slot of an UP port with mirror enabled (R94, R166). -/
theorem MasterPort.mirrorHandoff_eq (m : MasterPort) (r : ResultRecord) : m.mirrorHandoff r = { m with
    mirrorSlot := if m.alert.mirrorEnable = true ∧ m.link = .up then some r else m.mirrorSlot } := by
  unfold MasterPort.mirrorHandoff
  simp only [Bool.and_eq_true, decide_eq_true_eq]
  split_ifs <;> rfl

/-- A busy transmitter takes nothing (R167). -/
theorem MasterPort.arbitrate_busy {m : MasterPort} (h : m.tx ≠ .idle) : m.arbitrate = m := by
  rcases m.arbitrate_cases with e | ⟨_, _, ht, -⟩ | ⟨_, ht, -⟩
  · exact e
  · exact absurd ht h
  · exact absurd ht h

/-- An idle transmitter takes the oldest reply (R167). -/
theorem MasterPort.arbitrate_reply {m : MasterPort} {r : Frame} {rest : List Frame} (ht : m.tx = .idle)
    (hq : m.replyQueue = r :: rest) : m.arbitrate = { m with
      tx := .sending r false
      replyQueue := rest
      holdoff := decide (4 ≤ m.rxQueue.length)
      waitingForRoom := !m.rxQueue.isEmpty && decide (4 ≤ rest.length) } := by
  simp [MasterPort.arbitrate, ht, hq, MasterPort.judge, Config.receiveQueueSize, Config.replyQueueSize]

/-- What an idle transmitter with no reply to send takes up: the mirror record, or nothing. -/
def mirrorTx : Option ResultRecord → MasterTx
  | some r => .sending r.mirrorFrame false
  | none => .idle

/-- An idle transmitter with no reply to send takes the mirror record, if one waits (R167). -/
theorem MasterPort.arbitrate_mirror {m : MasterPort} (ht : m.tx = .idle) (hq : m.replyQueue = []) :
    m.arbitrate = { m with tx := mirrorTx m.mirrorSlot, mirrorSlot := none } := by
  obtain ⟨link, receiver, rx, wait, hold, reply, mirror, tx, alert⟩ := m
  obtain rfl : tx = .idle := ht
  obtain rfl : reply = [] := hq
  cases mirror <;> rfl

/-- The hand-over of a result record to a port whose alert unit has changed but for its mirror enable. -/
theorem MasterPort.mirrorHandoff_withAlert {m : MasterPort} {u : AlertUnit} {r : ResultRecord} {x : Option ResultRecord}
    (hu : u.mirrorEnable = m.alert.mirrorEnable)
    (hx : x = if m.alert.mirrorEnable = true ∧ m.link = .up then some r else m.mirrorSlot) :
    ({ m with alert := u } : MasterPort).mirrorHandoff r = { m with alert := u, mirrorSlot := x } := by
  rw [MasterPort.mirrorHandoff_eq, hx]
  simp only [hu]

theorem allocationAlert_mirrorEnable (inp : AllocInput) (s : State) (p : MasterId) :
    (allocationAlert inp s p).mirrorEnable = (s.master p).alert.mirrorEnable := by
  simp [allocationAlert]

/-- Settles O35: the fields of the allocation one by one, the stability port by the arbiter's cases. -/
theorem anAllocationMirrorsItsResultAndKeepsTheRest : Obligations.AnAllocationMirrorsItsResultAndKeepsTheRest := by
  intro inp s slot hslot
  have hd := (allocate_demandPort inp s).trans (MasterPort.mirrorHandoff_withAlert (m := s.demandPort)
    (allocationAlert_mirrorEnable inp s .demand) (hslot _))
  have hst := (allocate_stabilityPort inp s).trans (congrArg MasterPort.arbitrate
    (MasterPort.mirrorHandoff_withAlert (m := s.stabilityPort) (allocationAlert_mirrorEnable inp s .stability)
      (hslot _)))
  refine ⟨allocate_alloc s inp, by simp, fun p => ?_, by simp [hd], fun ht => ?_, fun ht hq => ?_, fun r rest ht hq => ?_⟩
  · cases p
    · simp [hd]
    · simp [hst]
  · rw [hst.trans (MasterPort.arbitrate_busy ht)]
    exact ⟨rfl, rfl, rfl, rfl, rfl⟩
  · rw [hst.trans (MasterPort.arbitrate_mirror ht hq)]
    refine ⟨hq, rfl, ?_, rfl, rfl⟩
    cases slot s.stabilityPort <;> rfl
  · rw [hst.trans (MasterPort.arbitrate_reply ht hq)]
    exact ⟨rfl, rfl, rfl, rfl, rfl⟩

end Sys2Proof.Machine
end

section
/-! PROOFS. An allocation under way: each part is taken once (O36). -/

namespace Sys2Proof.Machine

/-! ## The parts that read and the parts that write -/

/-- The parts by which an allocation reads, in the order of its stages. -/
def readingParts : List AllocPart :=
  [.claimTable, .read .front, .read .rear, .share]

/-- The parts by which an allocation writes and hands over its records (R70, R92, R94). -/
def writingParts : List AllocPart :=
  [.record, .handOver .front, .handOver .rear, .mirror .demand, .mirror .stability]

theorem partOrder_eq : partOrder = readingParts ++ writingParts := rfl

theorem mem_writingParts (x : AllocPart) :
    x ∈ writingParts ↔ x = .record ∨ (∃ a, x = .handOver a) ∨ ∃ p, x = .mirror p := by
  rcases x with _ | _ | _ | _ | a | p
  case handOver => cases a <;> simp [writingParts]
  case mirror => cases p <;> simp [writingParts]
  all_goals simp [writingParts]

/-- What a writing part does to the state with the records formed. -/
def writePart (replying : Option MasterId) : AllocPart → Allocation → State → State
  | .record, al => recordAllocation al
  | .handOver a, al => commandHandoff a (al.commandOf a)
  | .mirror p, al => mirrorHandOver replying p al.result
  | _, _ => id

/-- A writing part is taken once, and only after everything has been read (R95). -/
theorem takePart_writing {x : AllocPart} (hx : x ∈ writingParts) (w : Allocating) (t : State) :
    takePart x w t = if w.complete && !w.done.contains x then
      ({ w with done := x :: w.done }, writePart w.replying x (w.formed t) t) else (w, t) := by
  rcases (mem_writingParts x).mp hx with rfl | ⟨a, rfl⟩ | ⟨p, rfl⟩ <;> rfl

/-- A reading part takes up no record: what is done, the sequence and the allocator stand. -/
theorem takePart_reading {x : AllocPart} (hx : x ∉ writingParts) (w : Allocating) (t : State) :
    (takePart x w t).1.done = w.done ∧ (takePart x w t).1.sequence = w.sequence
      ∧ (takePart x w t).2.alloc = t.alloc := by
  rcases x with _ | a | _ | _ | a | p
  · simp only [takePart]
    split
    · exact ⟨rfl, rfl, claimTableAct_alloc t⟩
    · exact ⟨rfl, rfl, rfl⟩
  · cases a <;> (simp only [takePart]; split <;> exact ⟨rfl, rfl, trivial⟩)
  · simp only [takePart]
    split
    · exact ⟨rfl, rfl, shareAct_alloc _ _ _ _⟩
    · exact ⟨rfl, rfl, rfl⟩
  · exact absurd hx (by decide)
  · exact absurd ((mem_writingParts _).mpr (.inr (.inl ⟨a, rfl⟩))) hx
  · exact absurd ((mem_writingParts _).mpr (.inr (.inr ⟨p, rfl⟩))) hx

/-- Of the writing parts only the writing of the records reaches the allocator (R70). -/
theorem writePart_alloc (replying : Option MasterId) (x : AllocPart) (al : Allocation) (t : State) :
    (writePart replying x al t).alloc
      = if x = .record then { t.alloc with lastClipped := al.clipped, lastResult := some al.result } else t.alloc := by
  cases x <;> simp [writePart, recordAllocation, mirrorHandOver]

/-- What is formed from everything that has been read does not depend on the state (R95). -/
theorem formed_state {w : Allocating} (h : w.complete = true) (t u : State) : w.formed t = w.formed u :=
  formed_of_complete h w.done u t

/-- Once everything has been read no part changes what is formed (R95). -/
theorem formed_takePart {w : Allocating} (h : w.complete = true) (x : AllocPart) (t : State) :
    (takePart x w t).1.complete = true ∧ (takePart x w t).1.formed (takePart x w t).2 = w.formed t := by
  rcases complete_takePart h x t with e | e <;> rw [e]
  · exact ⟨h, formed_state h _ _⟩
  · exact ⟨h, formed_of_complete h _ _ _⟩

/-! ## The invariant of an allocation under way -/

/-- An allocation of number `n` under way: its sequence and the allocator's counter are `n`, each writing part is done at
most once and only after everything has been read, and once the records are written the allocator holds what is formed. -/
structure Underway (n : Byte) (w : Allocating) (t : State) : Prop where
  sequence : w.sequence = n
  counter : t.alloc.counter = n
  nodup : w.done.Nodup
  subset : ∀ x ∈ w.done, x ∈ writingParts
  complete : w.done ≠ [] → w.complete = true
  recorded : .record ∈ w.done →
    t.alloc.lastClipped = (w.formed t).clipped ∧ t.alloc.lastResult = some (w.formed t).result

theorem Underway.takePart {n : Byte} {w : Allocating} {t : State} (h : Underway n w t) (x : AllocPart) :
    Underway n (takePart x w t).1 (takePart x w t).2 := by
  by_cases hx : x ∈ writingParts
  · rw [takePart_writing hx]
    split_ifs with hc
    · simp only [Bool.and_eq_true, Bool.not_eq_true', List.contains_eq_mem, decide_eq_false_iff_not] at hc
      obtain ⟨hcomplete, hnew⟩ := hc
      have hformed : Allocating.formed { w with done := x :: w.done } (writePart w.replying x (w.formed t) t)
          = w.formed t := formed_of_complete hcomplete _ _ _
      refine ⟨h.sequence, ?_, List.nodup_cons.mpr ⟨hnew, h.nodup⟩, ?_, fun _ => hcomplete, fun hr => ?_⟩
      · rw [writePart_alloc]; split <;> exact h.counter
      · rintro y (_ | ⟨_, hy⟩)
        · exact hx
        · exact h.subset y hy
      · rw [hformed, writePart_alloc]
        split_ifs with hrec
        · exact ⟨rfl, rfl⟩
        · exact h.recorded ((List.mem_cons.mp hr).resolve_left fun e => hrec e.symm)
    · exact h
  · obtain ⟨hdone, hseq, halloc⟩ := takePart_reading hx w t
    refine ⟨hseq.trans h.sequence, ?_, ?_, ?_, ?_, ?_⟩
    · rw [halloc]; exact h.counter
    · rw [hdone]; exact h.nodup
    · rw [hdone]; exact h.subset
    · rw [hdone]; exact fun hne => (formed_takePart (h.complete hne) x t).1
    · rw [hdone, halloc]
      intro hr
      rw [(formed_takePart (h.complete (List.ne_nil_of_mem hr)) x t).2]
      exact h.recorded hr

theorem Underway.event {n : Byte} {w : Allocating} {t : State} (h : Underway n w t) (e : InnerEvent) :
    Underway n w (eventAfter w.replying e t) := by
  obtain ⟨-, -, halloc, -⟩ := sameAllocator_eventAfter w.replying e t
  refine ⟨h.sequence, ?_, h.nodup, h.subset, h.complete, fun hr => ?_⟩
  · rw [halloc]; exact h.counter
  · rw [halloc, formed_state (h.complete (List.ne_nil_of_mem hr)) _ t]; exact h.recorded hr

theorem allocating_underway (replying : Option MasterId) (inp : AllocInput) (s : State) :
    Underway (s.alloc.counter + 1#8) (allocating replying inp s).1 (allocating replying inp s).2 :=
  allocating_induction replying inp s
    ⟨rfl, rfl, List.nodup_nil, fun _ h => absurd h List.not_mem_nil, fun h => absurd rfl h,
      fun h => absurd h List.not_mem_nil⟩
    (fun x _ _ h => h.takePart x) fun e _ _ h => h.event e

/-! ## The end of an allocation -/

/-- The parts of a list taken in order, with no event between them. -/
def takeParts (xs : List AllocPart) (ws : Allocating × State) : Allocating × State :=
  xs.foldl (fun ws x => takePart x ws.1 ws.2) ws

/-- What falls inside an allocation, taken in order. -/
def takeMoments (ms : List AllocMoment) (ws : Allocating × State) : Allocating × State :=
  ms.foldl (fun ws m => takeMoment m ws) ws

theorem allocating_eq (replying : Option MasterId) (inp : AllocInput) (s : State) :
    allocating replying inp s = takeParts writingParts (takeParts readingParts
      (takeMoments (s.inside.headD []) (startAllocating replying inp s))) := by
  rw [allocating, partOrder_eq, List.foldl_append]; rfl

/-- Once everything has been read, further parts neither undo that nor change what is formed. -/
theorem takeParts_formed (xs : List AllocPart) {ws : Allocating × State} (h : ws.1.complete = true) :
    (takeParts xs ws).1.complete = true ∧ (takeParts xs ws).1.formed (takeParts xs ws).2 = ws.1.formed ws.2 := by
  induction xs generalizing ws with
  | nil => exact ⟨h, rfl⟩
  | cons x xs ih =>
    obtain ⟨hc, hf⟩ := formed_takePart h x ws.2
    obtain ⟨hc', hf'⟩ := ih (ws := takePart x ws.1 ws.2) hc
    exact ⟨hc', hf'.trans hf⟩

/-- A part that is done stays done. -/
theorem takeParts_done_mono (xs : List AllocPart) (ws : Allocating × State) {y : AllocPart} (h : y ∈ ws.1.done) :
    y ∈ (takeParts xs ws).1.done := by
  induction xs generalizing ws with
  | nil => exact h
  | cons x xs ih =>
    refine ih (takePart x ws.1 ws.2) ?_
    obtain ⟨-, e | e⟩ := takePart_done x ws.1 ws.2 <;> rw [e]
    · exact h
    · exact List.mem_cons_of_mem _ h

/-- Once everything has been read, each writing part that comes is done. -/
theorem mem_takeParts_done (xs : List AllocPart) {ws : Allocating × State} (h : ws.1.complete = true) {x : AllocPart}
    (hx : x ∈ xs) (hw : x ∈ writingParts) : x ∈ (takeParts xs ws).1.done := by
  induction xs generalizing ws with
  | nil => cases hx
  | cons y xs ih =>
    rcases List.mem_cons.mp hx with rfl | hx
    · refine takeParts_done_mono xs (takePart x ws.1 ws.2) ?_
      rw [takePart_writing hw]
      split_ifs with hc
      · exact List.mem_cons_self
      · simpa [h] using hc
    · exact ih (ws := takePart y ws.1 ws.2) (formed_takePart h y ws.2).1 hx

/-- After its reading parts an allocation has read everything, and forms what it ends with. -/
theorem allocating_formed (replying : Option MasterId) (inp : AllocInput) (s : State) {ws : Allocating × State}
    (hws : takeParts readingParts (takeMoments (s.inside.headD []) (startAllocating replying inp s)) = ws) :
    ws.1.complete = true ∧ (allocating replying inp s).1.complete = true
      ∧ (allocateWith replying inp s).1 = ws.1.formed ws.2 := by
  have hc : ws.1.complete = true := by rw [← hws]; exact complete_of_reads _ _
  have hend := takeParts_formed writingParts hc
  rw [← hws, ← allocating_eq, hws] at hend
  exact ⟨hc, hend⟩

/-- Settles O36: the invariant at the end of the allocation, and the equations of each part. -/
theorem anAllocationTakesEachPartOnce : Obligations.AnAllocationTakesEachPartOnce := by
  refine ⟨fun replying inp s t w hw => ?_, fun w t => ⟨?_, ?_, ?_, ?_⟩⟩
  · have hu := allocating_underway replying inp s
    obtain ⟨hread, hcomplete, -⟩ := allocating_formed replying inp s rfl
    have hall : ∀ x ∈ writingParts, x ∈ (allocating replying inp s).1.done := fun x hx => by
      rw [allocating_eq]; exact mem_takeParts_done _ hread hx hx
    have hpair : allocateWith replying inp s
        = ((allocating replying inp s).1.formed (allocating replying inp s).2, (allocating replying inp s).2) := rfl
    rw [hpair]
    rw [← hw] at hu hcomplete hall ⊢
    obtain ⟨hclip, hres⟩ := hu.recorded (hall .record (by decide))
    simp only [Allocating.complete, Bool.and_eq_true] at hcomplete
    obtain ⟨⟨⟨hb, hf⟩, hr⟩, hl⟩ := hcomplete
    refine ⟨hb, hf, hr, hl, ?_, hu.sequence, hu.counter, rfl, hclip, hres⟩
    exact (List.perm_ext_iff_of_nodup hu.nodup (by decide)).mpr fun x => ⟨hu.subset x, hall x⟩
  · refine ⟨fun h => by simp [takePart, h], fun h => by simp [takePart, h], fun h => by simp [takePart, h], ?_⟩
    rintro f r u hf hr hl rfl
    simp [takePart, hf, hr, hl]
  · rintro b f r n al hb hf hr hl rfl
    have hc : w.complete = true := by simp [Allocating.complete, hb, hf, hr, hl]
    have hformed : w.formed t = formAllocation w.input w.policy w.sequence b f r n := by
      simp [Allocating.formed, hb, hf, hr, hl]
    have hwrite : ∀ x ∈ writingParts, x ∉ w.done → takePart x w t = ({ w with done := x :: w.done },
        writePart w.replying x (formAllocation w.input w.policy w.sequence b f r n) t) := by
      intro x hx hnew
      rw [takePart_writing hx, if_pos (by simpa [hc] using hnew), hformed]
    refine ⟨hformed, hwrite _ (by decide), fun a h => ?_, fun p => hwrite _ ((mem_writingParts _).mpr (.inr (.inr ⟨p, rfl⟩))),
      fun m => ?_⟩
    · rw [hwrite _ ((mem_writingParts _).mpr (.inr (.inl ⟨a, rfl⟩))) h]
      cases a <;> rfl
    · rw [← hformed]
      cases m with
      | part x =>
        simp only [takeMoment]
        split
        · rfl
        · exact (formed_takePart hc x t).2
      | event e => exact formed_state hc _ _
  · refine ⟨fun h => ?_, fun h => ?_, fun h => ?_, fun h => ?_, fun x hx h => ?_⟩
    · simp [takePart, h]
    · simp [takePart, h]
    · simp [takePart, h]
    · simp only [takePart]
      split
      · next f r hf hr hl => simp [hf, hr, hl] at h
      · rfl
    · rw [takePart_writing ((mem_writingParts x).mpr hx), if_neg]
      rcases h with h | h | h | h | h <;> simp [Allocating.complete, h]
  · refine ⟨fun x hx => ?_, fun p hp => ?_, fun e => rfl⟩
    · rcases x with _ | _ | _ | _ | _ | p
      case mirror => simp [takeMoment, withReply, hx p rfl]
      all_goals rfl
    · simp [takeMoment, withReply, hp]

end Sys2Proof.Machine
end

section
/-! PROOFS. Configuration (O43, O44) and STATUS (O45). -/

namespace Sys2Proof.Machine

/-! ## The ranges of the sections -/

theorem envelopeValid_iff (e : Envelope) : envelopeValid e = true ↔
    (1 ≤ e.frontUpper ∧ e.frontUpper ≤ 16000 ∧ -16000 ≤ e.frontLower ∧ e.frontLower ≤ -1)
      ∧ (1 ≤ e.rearUpper ∧ e.rearUpper ≤ 16000 ∧ -16000 ≤ e.rearLower ∧ e.rearLower ≤ -1)
      ∧ (1 ≤ e.totalUpper ∧ e.totalUpper ≤ 32000 ∧ -32000 ≤ e.totalLower ∧ e.totalLower ≤ -1) := by
  simp [envelopeValid, edgesValid, Config.maxAxleTorque, Config.maxTotalTorque, and_assoc]

theorem motionValid_iff (m : Motion) : motionValid m = true ↔ (1 ≤ m.shareSlew ∧ m.shareSlew ≤ 1000)
    ∧ (1 ≤ m.frontSlew ∧ m.frontSlew ≤ 16000) ∧ (1 ≤ m.rearSlew ∧ m.rearSlew ≤ 16000)
    ∧ (1 ≤ m.lapseSlew ∧ m.lapseSlew ≤ 16000) := by
  simp [motionValid, rateValid, and_assoc]

theorem timingValid_iff (t : Timing) : timingValid t = true ↔ (2 ≤ t.lapseTime ∧ t.lapseTime ≤ 250)
    ∧ (1 ≤ t.lapseStep ∧ t.lapseStep ≤ 50) ∧ (10 ≤ t.windowCount ∧ t.windowCount ≤ 200)
    ∧ (1 ≤ t.missLimit ∧ t.missLimit ≤ 8) ∧ (1 ≤ t.rejoinCount ∧ t.rejoinCount ≤ 16)
    ∧ (1 ≤ t.orphanLifetime ∧ t.orphanLifetime ≤ 250) := by
  simp [timingValid, and_assoc]

/-- A list ascends when each value lies below every later one (R156). -/
theorem ascending_iff (bands : List Nat) : ascending bands = true ↔ bands.Pairwise (· < ·) := by
  rw [← List.isChain_iff_pairwise]
  induction bands with
  | nil => simp [ascending]
  | cons a rest ih =>
    cases rest with
    | nil => simp [ascending]
    | cons b rest => rw [List.isChain_cons_cons, ← ih]; simp [ascending]

theorem bandsValid_iff (limit : Nat) (bands : List Nat) : bandsValid limit bands = true ↔
    1 ≤ bands.length ∧ bands.length ≤ 7 ∧ bands.Pairwise (· < ·) ∧ ∀ b ∈ bands, 1 ≤ b ∧ b ≤ limit := by
  simp only [bandsValid, Bool.and_eq_true, decide_eq_true_eq, List.all_eq_true, ascending_iff]
  tauto

theorem alertValid_iff (masks : Half) (mirror : Byte) : alertValid masks mirror = true ↔
    masks.getLsbD 14 = false ∧ masks.getLsbD 15 = false ∧ (mirror = 0#8 ∨ mirror = 1#8) := by
  simp [alertValid, and_assoc]

theorem stationary_iff (x : AllocState) : x.stationary = true ↔ x = .unconfigured ∨ x = .ready := by
  cases x <;> decide

/-- A choice is read from the codes 0 and 1 alone (R153). -/
theorem readChoice_isSome {α : Type} (a b : α) (c : Byte) :
    (readChoice a b c).isSome = true ↔ c = 0#8 ∨ c = 1#8 := by
  unfold readChoice
  split_ifs <;> simp [*]

theorem readChoice_ite {α : Type} (a b : α) (c : Bool) :
    readChoice a b (if c then 1#8 else 0#8) = some (if c then b else a) := by
  cases c <;> rfl

/-- A POLICY section is read where each of its six values is (R153). -/
theorem readPolicy_isSome (f : Frame) : (readPolicy f).isSome = true ↔
    ∀ i, 1 ≤ i → i ≤ 6 → f.byteAt i = 0#8 ∨ f.byteAt i = 1#8 := by
  have hsix : (readPolicy f).isSome = true ↔ (f.byteAt 1 = 0#8 ∨ f.byteAt 1 = 1#8) ∧ (f.byteAt 2 = 0#8 ∨ f.byteAt 2 = 1#8)
      ∧ (f.byteAt 3 = 0#8 ∨ f.byteAt 3 = 1#8) ∧ (f.byteAt 4 = 0#8 ∨ f.byteAt 4 = 1#8)
      ∧ (f.byteAt 5 = 0#8 ∨ f.byteAt 5 = 1#8) ∧ (f.byteAt 6 = 0#8 ∨ f.byteAt 6 = 1#8) := by
    unfold readPolicy
    rw [← readChoice_isSome EdgeAction.clamp .refuse (f.byteAt 1), ← readChoice_isSome EdgeAction.clamp .refuse (f.byteAt 2),
      ← readChoice_isSome ExcessSetting.spill .shed (f.byteAt 3), ← readChoice_isSome ExcessSetting.spill .shed (f.byteAt 4),
      ← readChoice_isSome Replacement.replace .tighten (f.byteAt 5),
      ← readChoice_isSome Replacement.replace .tighten (f.byteAt 6)]
    simp [Option.isSome_iff_exists, Option.bind_eq_some_iff]
  rw [hsix]
  constructor
  · rintro ⟨h1, h2, h3, h4, h5, h6⟩ i hlow hhigh
    interval_cases i <;> assumption
  · exact fun h => ⟨h 1 (by omega) (by omega), h 2 (by omega) (by omega), h 3 (by omega) (by omega),
      h 4 (by omega) (by omega), h 5 (by omega) (by omega), h 6 (by omega) (by omega)⟩

/-! ## The five checks -/

/-- The answer to a CONFIGURE by its checks (R150). -/
theorem configureAnswer_cases (l k st t fl : Bool) (n : Nat) (store : State → State) (s : State) :
    configureAnswer (configureRefusal l k st t fl) n store s
      = if l = false then refuse .badField s else if k = false then refuse .notPermitted s
        else if st = false then refuse .wrongState s else if t = false then refuse .claimsPresent s
        else if fl = false then refuse .badField s else ([0x00#8, byteOf n], store s) := by
  cases l <;> cases k <;> cases st <;> cases t <;> cases fl <;> rfl

section
variable {c : Instr} {p : MasterId} {f : Frame} {s : State} {l k st t fl : Bool} {n : Nat} {store : State → State}

/-- A CONFIGURE that passes its five checks stores its section. -/
theorem exec_configure_accepted (hr : Ready p f s) (hd : decodeRequest p f = c)
    (ho : ownerOf c f (taken p s) = configureAnswer (configureRefusal l k st t fl) n store (taken p s))
    (h : l = true ∧ k = true ∧ st = true ∧ t = true ∧ fl = true) :
    exec c s = .next (answered p f [0x00#8, byteOf n] (store (taken p s))) := by
  obtain ⟨rfl, rfl, rfl, rfl, rfl⟩ := h
  rw [exec_taken hr hd, ho]
  rfl

/-- The refusals of a CONFIGURE, by its five checks (R150). -/
theorem exec_configure_refused (hr : Ready p f s) (hd : decodeRequest p f = c)
    (ho : ownerOf c f (taken p s) = configureAnswer (configureRefusal l k st t fl) n store (taken p s)) :
    (l = false → exec c s = .next (answered p f [0x13#8] (taken p s)))
    ∧ (l = true →
        (k = false → exec c s = .next (answered p f [0x10#8] (taken p s)))
        ∧ (k = true →
            (st = false → exec c s = .next (answered p f [0x12#8] (taken p s)))
            ∧ (st = true →
                (t = false → exec c s = .next (answered p f [0x1B#8] (taken p s)))
                ∧ (t = true → fl = false → exec c s = .next (answered p f [0x13#8] (taken p s)))))) := by
  rw [exec_taken hr hd, ho, configureAnswer_cases]
  refine ⟨?_, ?_⟩
  · rintro rfl; rfl
  · rintro rfl
    refine ⟨?_, ?_⟩
    · rintro rfl; rfl
    · rintro rfl
      refine ⟨?_, ?_⟩
      · rintro rfl; rfl
      · rintro rfl
        exact ⟨fun ht => by rw [ht]; rfl, fun ht hfl => by rw [ht, hfl]; rfl⟩

end

/-- The row of a CONFIGURE by its section identifier (R150). -/
theorem decodeRequest_configure (p : MasterId) {f : Frame} (h : f.kind = Kind.configure) : decodeRequest p f
    = if f.byteAt 0 = 1#8 then .configureEnvelope p
      else if f.byteAt 0 = 2#8 then .configurePolicy p
      else if f.byteAt 0 = 3#8 then .configureMotion p
      else if f.byteAt 0 = 4#8 then .configureTiming p
      else if f.byteAt 0 = 5#8 then .configureLoadBands p
      else if f.byteAt 0 = 6#8 then .configureSpeedBands p
      else if f.byteAt 0 = 7#8 then .configureAlert p
      else .configureUnknownSection p := by
  unfold decodeRequest; rw [h]; rfl

/-- A port's new alert settings, with the line they judge (R157, R170). -/
theorem MasterPort.configureAlert_eq (masks : Half) (mirror : Bool) (m : MasterPort) :
    m.configureAlert masks mirror = { m with
      alert := { m.alert with
        masks := masks
        mirrorEnable := mirror
        alertLine := decide (m.alert.flags &&& ~~~masks ≠ 0#16) }
      mirrorSlot := if mirror then m.mirrorSlot else none } := by
  simp only [MasterPort.configureAlert, AlertUnit.configure, AlertUnit.judge, bne, ← decide_not, beq_eq_decide]

theorem ownerOf_configureAlert (p : MasterId) (f : Frame) (s : State) : ownerOf (.configureAlert p) f s
    = configureAnswer (configureRefusal (decide (f.payload.length = 4)) true true true
        (alertValid (f.halfAt 1) (f.byteAt 3))) 7
        (fun s => s.onMaster p (MasterPort.configureAlert (f.halfAt 1) (decide (f.byteAt 3 = 1#8)))) s := rfl

/-- Settles O43: each section passes its checks and is stored. -/
theorem configureReplacesTheWholeSection : Obligations.ConfigureReplacesTheWholeSection := by
  refine ⟨fun f s hready hk => ⟨?_, ?_, ?_, ?_, ?_⟩, ?_⟩
  · intro hid hlen hst htab h1 h2 h3 h4 h5 h6 h7 h8 h9 h10 h11 h12
    have hexec := exec_configure_accepted (c := .configureEnvelope .demand) hready
      (by rw [decodeRequest_configure _ hk, hid]; rfl) rfl
      ⟨by simpa using hlen, rfl, by rw [taken_alloc, stationary_iff]; exact hst, by rw [taken_table, htab]; rfl,
        (envelopeValid_iff _).mpr ⟨⟨h1, h2, h3, h4⟩, ⟨h5, h6, h7, h8⟩, ⟨h9, h10, h11, h12⟩⟩⟩
    rw [hexec, storeEnvelope]
    rcases hst with h | h <;> simp [h] <;> rfl
  · intro b1 b2 b3 b4 b5 b6 hid hlen hst h1 h2 h3 h4 h5 h6
    have hread : readPolicy f = some ⟨if b1 then .refuse else .clamp, if b2 then .refuse else .clamp,
        if b3 then .shed else .spill, if b4 then .shed else .spill, if b5 then .tighten else .replace,
        if b6 then .tighten else .replace⟩ := by
      simp only [readPolicy, h1, h2, h3, h4, h5, h6, readChoice_ite]
      rfl
    have hexec := exec_configure_accepted (c := .configurePolicy .demand) hready
      (by rw [decodeRequest_configure _ hk, hid]; rfl) rfl
      ⟨by simpa using hlen, rfl, by rw [taken_alloc, stationary_iff]; exact hst, rfl, by rw [hread]; rfl⟩
    rw [hexec, hread]
    rfl
  · intro hid hlen h1 h2 h3 h4 h5 h6 h7 h8
    exact exec_configure_accepted (c := .configureMotion .demand) hready
      (by rw [decodeRequest_configure _ hk, hid]; rfl) rfl
      ⟨by simpa using hlen, rfl, rfl, rfl, (motionValid_iff _).mpr ⟨⟨h1, h2⟩, ⟨h3, h4⟩, ⟨h5, h6⟩, ⟨h7, h8⟩⟩⟩
  · intro hid hlen hst h1 h2 h3 h4 h5 h6 h7 h8 h9 h10 h11 h12
    exact exec_configure_accepted (c := .configureTiming .demand) hready
      (by rw [decodeRequest_configure _ hk, hid]; rfl) rfl
      ⟨by simpa using hlen, rfl, by rw [taken_alloc, stationary_iff]; exact hst, rfl,
        (timingValid_iff _).mpr ⟨⟨h1, h2⟩, ⟨h3, h4⟩, ⟨h5, h6⟩, ⟨h7, h8⟩, ⟨h9, h10⟩, ⟨h11, h12⟩⟩⟩
  · rintro bands rfl hlen hst h1 h7 hasc
    refine ⟨fun hid hrange => ?_, fun hid hrange => ?_⟩
    · exact exec_configure_accepted (c := .configureLoadBands .demand) hready
        (by rw [decodeRequest_configure _ hk, hid]; rfl) rfl
        ⟨by simpa [bandsLengthOk] using hlen, rfl, by rw [taken_alloc, stationary_iff]; exact hst, rfl,
          (bandsValid_iff _ _).mpr ⟨h1, h7, hasc, hrange⟩⟩
    · exact exec_configure_accepted (c := .configureSpeedBands .demand) hready
        (by rw [decodeRequest_configure _ hk, hid]; rfl) rfl
        ⟨by simpa [bandsLengthOk] using hlen, rfl, by rw [taken_alloc, stationary_iff]; exact hst, rfl,
          (bandsValid_iff _ _).mpr ⟨h1, h7, hasc, hrange⟩⟩
  · intro p f s mirror hready hk hid hlen h14 h15 hmirror
    have hmark : decide (f.byteAt 3 = 1#8) = mirror := by rw [hmirror]; cases mirror <;> rfl
    have hexec := exec_configure_accepted (c := .configureAlert p) hready
      (by rw [decodeRequest_configure _ hk, hid]; rfl) (ownerOf_configureAlert p f _)
      ⟨by simpa using hlen, rfl, rfl, rfl,
        (alertValid_iff _ _).mpr ⟨h14, h15, by rw [hmirror]; cases mirror <;> decide⟩⟩
    rw [hexec, hmark, funext (MasterPort.configureAlert_eq (f.halfAt 1) mirror)]
    rfl

/-! ## Refusals -/

/-- The largest breakpoint of a band section (R156). -/
def breakpointLimit (id : Nat) : Nat :=
  if id = 5 then 99 else 250

/-- The row and the owner's checks of a CONFIGURE, by its section identifier: the length, the link, the state, the empty
table, the fields (R150). An unknown identifier fails the first check. -/
theorem configure_checks (p : MasterId) {f : Frame} (hk : f.kind = Kind.configure) {id : Nat}
    (hid : id = (f.byteAt 0).toNat) (s : State) :
    ∃ l k st t fl n store, ownerOf (decodeRequest p f) f s = configureAnswer (configureRefusal l k st t fl) n store s
      ∧ (l = true ↔ (id = 1 ∧ f.payload.length = 13) ∨ (id = 2 ∧ f.payload.length = 7)
        ∨ (id = 3 ∧ f.payload.length = 9) ∨ (id = 4 ∧ f.payload.length = 7)
        ∨ ((id = 5 ∨ id = 6) ∧ f.payload.length = 2 + f.natAt 1) ∨ (id = 7 ∧ f.payload.length = 4))
      ∧ (l = true → (k = true ↔ p = .demand ∨ id = 7)
        ∧ (st = true ↔ id = 3 ∨ id = 7 ∨ s.alloc.state = .unconfigured ∨ s.alloc.state = .ready)
        ∧ (t = true ↔ id ≠ 1 ∨ s.table = [])
        ∧ (fl = true ↔ (id = 1 ∧ envelopeValid (readEnvelope f) = true) ∨ (id = 2 ∧ (readPolicy f).isSome = true)
          ∨ (id = 3 ∧ motionValid (readMotion f) = true) ∨ (id = 4 ∧ timingValid (readTiming f) = true)
          ∨ ((id = 5 ∨ id = 6) ∧ bandsValid (breakpointLimit id) (readBands f) = true)
          ∨ (id = 7 ∧ alertValid (f.halfAt 1) (f.byteAt 3) = true))) := by
  have hmay : mayConfigure p = true ↔ p = .demand := by cases p <;> decide
  have htoNat : ∀ b : Byte, f.byteAt 0 = b → id = b.toNat := fun b hb => by rw [hid, hb]
  rw [decodeRequest_configure p hk]
  split_ifs with h1 h2 h3 h4 h5 h6 h7
  · obtain rfl := htoNat _ h1
    exact ⟨_, _, _, _, _, _, _, rfl, by simp, by simp [hmay, stationary_iff]⟩
  · obtain rfl := htoNat _ h2
    exact ⟨_, _, _, _, _, _, _, rfl, by simp, by simp [hmay, stationary_iff]⟩
  · obtain rfl := htoNat _ h3
    exact ⟨_, _, _, _, _, _, _, rfl, by simp, by simp [hmay]⟩
  · obtain rfl := htoNat _ h4
    exact ⟨_, _, _, _, _, _, _, rfl, by simp, by simp [hmay, stationary_iff]⟩
  · obtain rfl := htoNat _ h5
    exact ⟨_, _, _, _, _, _, _, rfl, by simp [bandsLengthOk], by simp [hmay, stationary_iff, breakpointLimit]⟩
  · obtain rfl := htoNat _ h6
    exact ⟨_, _, _, _, _, _, _, rfl, by simp [bandsLengthOk], by simp [hmay, stationary_iff, breakpointLimit]⟩
  · obtain rfl := htoNat _ h7
    exact ⟨_, _, _, _, _, _, _, ownerOf_configureAlert p f s, by simp, by simp⟩
  · have hne : ∀ n : Nat, ∀ b : Byte, b.toNat = n → f.byteAt 0 ≠ b → id ≠ n := fun n b hb hn he =>
      hn (BitVec.eq_of_toNat_eq (by rw [← hid, he, hb]))
    have n1 := hne 1 _ rfl h1
    have n2 := hne 2 _ rfl h2
    have n3 := hne 3 _ rfl h3
    have n4 := hne 4 _ rfl h4
    have n5 := hne 5 _ rfl h5
    have n6 := hne 6 _ rfl h6
    have n7 := hne 7 _ rfl h7
    exact ⟨false, true, true, true, true, 0, fun t => t, rfl, by simp [n1, n2, n3, n4, n5, n6, n7], by simp⟩

/-- Settles O44: the row's checks are the listed ones, and the answer is the first that fails. -/
theorem configureRefusalsComeInOrder : Obligations.ConfigureRefusalsComeInOrder := by
  rintro p f s id bands lengthOk stateOk fieldsOk hready hk hid hlength hstate rfl hfields
  obtain ⟨l, k, st, t, fl, n, store, hanswer, hl, hrest⟩ := configure_checks p hk hid (taken p s)
  obtain ⟨rlen, rrest⟩ := exec_configure_refused hready rfl hanswer
  have hlen : lengthOk = l := Bool.eq_iff_iff.mpr (hlength.trans hl.symm)
  refine ⟨fun hunknown => ?_, fun h => rlen (hlen ▸ h), fun h => ?_⟩
  · have hrow : decodeRequest p f = .configureUnknownSection p := by
      have hne : ∀ b : Byte, 1 ≤ b.toNat → b.toNat ≤ 7 → f.byteAt 0 ≠ b := fun b hb1 hb7 he => by
        rw [hid, he] at hunknown; omega
      rw [decodeRequest_configure p hk, if_neg (hne _ (by decide) (by decide)), if_neg (hne _ (by decide) (by decide)),
        if_neg (hne _ (by decide) (by decide)), if_neg (hne _ (by decide) (by decide)),
        if_neg (hne _ (by decide) (by decide)), if_neg (hne _ (by decide) (by decide)),
        if_neg (hne _ (by decide) (by decide))]
    exact exec_taken hready hrow
  · have hl' : l = true := hlen ▸ h
    obtain ⟨hk', hst, ht, hfl⟩ := hrest hl'
    obtain ⟨rlink, rrest⟩ := rrest hl'
    rw [taken_alloc] at hst
    rw [taken_table] at ht
    have hstate' : stateOk = st := Bool.eq_iff_iff.mpr (hstate.trans hst.symm)
    have hfields' : fieldsOk = fl := by
      refine Bool.eq_iff_iff.mpr (hfields.trans (Iff.trans ?_ hfl.symm))
      simp only [envelopeValid_iff, readPolicy_isSome, motionValid_iff, timingValid_iff, bandsValid_iff, alertValid_iff,
        breakpointLimit]
    refine ⟨fun hp h7 => rlink ?_, fun hlink => ?_⟩
    · rw [Bool.eq_false_iff, ne_eq, hk', not_or]
      exact ⟨by rw [hp]; decide, h7⟩
    · obtain ⟨rstate, rrest⟩ := rrest (hk'.mpr hlink)
      refine ⟨fun h => rstate (hstate' ▸ h), fun h => ?_⟩
      obtain ⟨rtable, rfields⟩ := rrest (hstate' ▸ h)
      refine ⟨fun h1 htab => rtable ?_, fun htab h => rfields (ht.mpr htab) (hfields' ▸ h)⟩
      rw [Bool.eq_false_iff, ne_eq, ht, not_or]
      exact ⟨not_not.mpr h1, htab⟩

/-! ## STATUS -/

theorem decodeRequest_status (p : MasterId) {f : Frame} (h : f.kind = Kind.status) : decodeRequest p f = .status p := by
  unfold decodeRequest; rw [h]; rfl

theorem masterCount_eq (t : List ClaimEntry) :
    masterCount t = t.countP fun e => e.source = .demand || e.source = .stability := by
  unfold masterCount
  congr 1
  funext e
  cases e.source <;> rfl

/-- A cleared alert unit has no flag to report, and its line is low (R163, R170). -/
theorem AlertUnit.clear_eq (u : AlertUnit) :
    u.clear = { u with flags := 0#16, lastFault := none, alertLine := false } := by
  simp [AlertUnit.clear, AlertUnit.judge]

/-- Settles O45. -/
theorem statusReportsAndClearsThePortsFlags : Obligations.StatusReportsAndClearsThePortsFlags := by
  refine ⟨by decide, fun p f s frontBand rearBand hready hk hfront hrear => ?_⟩
  have hbands : statusBands (taken p s) = ⟨frontBand, rearBand⟩ := by
    rw [hfront, hrear, statusBands, taken_lastBands, taken_config]
    cases s.lastBands <;> rfl
  have hdemand : (taken p s).demandPort.link = s.demandPort.link := by cases p <;> rfl
  have hstability : (taken p s).stabilityPort.link = s.stabilityPort.link := by cases p <;> rfl
  rw [exec_taken hready (decodeRequest_status p hk)]
  simp only [ownerOf, statusOwner, statusBytes, hbands, State.onAlert, AlertUnit.clear_eq, masterCount_eq, linkStatesByte,
    axleStatesByte, taken_alloc, taken_forced, taken_alert, taken_front, taken_rear, taken_table, taken_holds,
    taken_liveShare, taken_lastGoverning, hdemand, hstability]
  rfl

end Sys2Proof.Machine
end

section
/-! PROOFS. The events inside an allocation (O37). -/

namespace Sys2Proof.Machine

/-! ## Events as rows -/

/-- An event whose meaning is a row's has its whole effect. -/
theorem exec_eq_eventAfter {replying : Option MasterId} {e : InnerEvent} {c : Instr} {t : State}
    (h : eventOutcome replying e t = exec c t) : exec c t = .next (eventAfter replying e t) := by
  obtain ⟨u, hu⟩ := exec_next c t
  rw [eventAfter, h, hu]

theorem eventAfter_row {replying : Option MasterId} {e : InnerEvent} {c : Instr} (t : State) (h : eventRow e = some c)
    (hb : ∀ p, replying = some p → c ≠ .masterLinkBreak p) : exec c t = .next (eventAfter replying e t) := by
  cases e <;> cases h
  case masterLinkBreak p => exact exec_eq_eventAfter (if_neg fun hp => hb p hp rfl)
  all_goals exact exec_eq_eventAfter rfl

/-- A request row other than the allocator's own keeps its owner inside an allocation (R73). -/
theorem ownerInside_eq {c : Instr} {p : MasterId} (hc : requestPort c = some p) (h : allocatorsOwn c = false) :
    ownerInside c = some (ownerOf c) := by
  cases c <;> cases hc
  case demand => cases p; exact absurd h (by decide); rfl
  case restart => cases p; exact absurd h (by decide); rfl
  all_goals rfl

/-- The rows of the allocator's own requests are DEMAND and RESTART on the demand link (R73). -/
theorem allocatorsOwn_decodeRequest (p : MasterId) (f : Frame) :
    allocatorsOwn (decodeRequest p f) = (decide (p = .demand) && decide (f.kind = Kind.demand ∨ f.kind = Kind.restart)) := by
  by_cases hd : f.kind = Kind.demand
  · rw [decodeRequest_demand p hd, hd]; cases p <;> rfl
  · by_cases hr : f.kind = Kind.restart
    · rw [decodeRequest_restart p hr, hr]; cases p <;> rfl
    · simp only [decodeRequest, hd, hr, if_false, apply_ite allocatorsOwn]
      simp [allocatorsOwn]

/-- A request taken inside an allocation has the whole effect of its row. -/
theorem eventAfter_request {replying : Option MasterId} {p : MasterId} {f : Frame} {t : State} (hr : Ready p f t)
    (hp : replying ≠ some p) (hown : allocatorsOwn (decodeRequest p f) = false) :
    exec (decodeRequest p f) t = .next (eventAfter replying (.request p) t) := by
  have hport := requestPort_decodeRequest p f
  obtain ⟨-, hhead, -⟩ := hr
  refine exec_eq_eventAfter ?_
  simp only [eventOutcome, if_neg hp, requestInside, hhead, ownerInside_eq hport hown, exec_request hport]

/-- A DEMAND or RESTART of the demand link falls inside no allocation (R73). -/
theorem eventAfter_own {replying : Option MasterId} {p : MasterId} {f : Frame} {t : State} (hr : Ready p f t)
    (hown : allocatorsOwn (decodeRequest p f) = true) : eventAfter replying (.request p) t = t := by
  have hnone : ownerInside (decodeRequest p f) = none := by
    rcases h : ownerInside (decodeRequest p f) with _ | owner
    · rfl
    · rw [(ownerInside_some h).2] at hown; cases hown
  obtain ⟨-, hhead, -⟩ := hr
  have houtcome : eventOutcome replying (.request p) t = .next t := by
    simp only [eventOutcome, requestInside, hhead, hnone, ite_self]
  rw [eventAfter, houtcome]

/-- On the link whose DEMAND is being taken nothing else is taken and no break falls (R159). -/
theorem eventAfter_replying {replying : Option MasterId} {p : MasterId} {e : InnerEvent} (t : State)
    (hp : replying = some p) (he : e = .request p ∨ e = .masterLinkBreak p) : eventAfter replying e t = t := by
  rcases he with rfl | rfl <;> simp [eventAfter, eventOutcome, hp]

/-! ## What is read after an event -/

/-- The state in which an allocation starts, before what falls inside it (R74). -/
def startedFrom (s : State) (rest : List (List AllocMoment)) : State :=
  { s with inside := rest, alloc := { s.alloc with counter := s.alloc.counter + 1#8 } }

/-- An allocation of number `n` under way that has read `b`, `f`, `r` and `live`, as far as they are there. -/
def underwayWith (replying : Option MasterId) (inp : AllocInput) (q : Policy) (n : Byte) (b : Option BandRecord)
    (f r : Option AxleUnit) (live : Option Nat) (done : List AllocPart) : Allocating :=
  ⟨inp, replying, q, n, b, f, r, live, done⟩

/-- The start of an allocation inside which the moments `ms` fall. -/
theorem startAllocating_eq {replying : Option MasterId} {inp : AllocInput} {s : State} {ms : List AllocMoment}
    {rest : List (List AllocMoment)} (h : s.inside = ms :: rest) : startAllocating replying inp s
      = (underwayWith replying inp s.config.policy (s.alloc.counter + 1#8) none none none none [], startedFrom s rest) := by
  simp [startAllocating, h, startedFrom, underwayWith]

/-- An allocation inside which the moments `ms` fall, by what its reading parts have read and the state they leave. -/
theorem allocateWith_reads {replying : Option MasterId} {inp : AllocInput} {s start : State} {ms : List AllocMoment}
    {rest : List (List AllocMoment)} (h : s.inside = ms :: rest) (hstart : start = startedFrom s rest) {b : BandRecord}
    {f r : AxleUnit} {live : Nat} {u : State} {done : List AllocPart}
    (hread : takeParts readingParts (takeMoments ms
        (underwayWith replying inp s.config.policy (s.alloc.counter + 1#8) none none none none [], start))
      = (underwayWith replying inp s.config.policy (s.alloc.counter + 1#8) b f r live done, u)) :
    (allocateWith replying inp s).1 = formAllocation inp s.config.policy (s.alloc.counter + 1#8) b f r live
      ∧ (allocateWith replying inp s).2 = (takeParts writingParts
          (underwayWith replying inp s.config.policy (s.alloc.counter + 1#8) b f r live done, u)).2 := by
  have hws : takeParts readingParts (takeMoments (s.inside.headD []) (startAllocating replying inp s))
      = (underwayWith replying inp s.config.policy (s.alloc.counter + 1#8) b f r live done, u) := by
    rw [← hread, startAllocating_eq h, h, hstart]
    rfl
  obtain ⟨-, -, hformed⟩ := allocating_formed replying inp s hws
  refine ⟨hformed, ?_⟩
  rw [allocateWith, allocating_eq, hws]

/-- An allocation under way that has read everything, as a writing part finds it. -/
theorem takePart_underwayWith {replying : Option MasterId} {inp : AllocInput} {q : Policy} {n : Byte} {b : BandRecord}
    {f r : AxleUnit} {live : Nat} {done : List AllocPart} {x : AllocPart} (hx : x ∈ writingParts) (hnew : x ∉ done)
    (t : State) : takePart x (underwayWith replying inp q n b f r live done) t
      = (underwayWith replying inp q n b f r live (x :: done),
        writePart replying x (formAllocation inp q n b f r live) t) := by
  rw [takePart_writing hx, if_pos (by simpa [underwayWith, Allocating.complete] using hnew)]
  rfl

theorem takeMoments_append (ms ns : List AllocMoment) (ws : Allocating × State) :
    takeMoments (ms ++ ns) ws = takeMoments ns (takeMoments ms ws) := List.foldl_append

/-- The four reading parts in the order of the stages, taken as moments: each reads at its own place. -/
theorem takeMoments_reading (replying : Option MasterId) (inp : AllocInput) (q : Policy) (n : Byte) {t u : State}
    (hu : u = shareAct (availability (claimTableAct t).front.state.available (claimTableAct t).rear.state.available)
      inp.load inp.speed (claimTableAct t)) :
    takeMoments [.part .claimTable, .part (.read .front), .part (.read .rear), .part .share]
        (underwayWith replying inp q n none none none none [], t)
      = (underwayWith replying inp q n (some (bandRecord t.table t.config)) (some (claimTableAct t).front)
          (some (claimTableAct t).rear) (some u.liveShare) [], u) := by
  rw [hu]; rfl

/-- The writing of the records and an event after it, once everything has been read. -/
theorem takeMoments_record_event (replying : Option MasterId) (inp : AllocInput) (q : Policy) (n : Byte) (b : BandRecord)
    (f r : AxleUnit) (live : Nat) (e : InnerEvent) (t : State) :
    takeParts readingParts (takeMoments [.part .record, .event e] (underwayWith replying inp q n b f r live [], t))
      = (underwayWith replying inp q n b f r live [.record],
        eventAfter replying e (recordAllocation (formAllocation inp q n b f r live) t)) := by
  have hrecord := takePart_underwayWith (replying := replying) (inp := inp) (q := q) (n := n) (b := b) (f := f) (r := r)
    (live := live) (x := .record) (done := []) (by decide) (by decide) t
  calc takeParts readingParts (takeMoments [.part .record, .event e] (underwayWith replying inp q n b f r live [], t))
      = takeParts readingParts (takeMoment (.event e) (takePart .record (underwayWith replying inp q n b f r live []) t)) :=
        rfl
    _ = _ := by rw [hrecord]; rfl

/-- The hand-overs that remain once everything has been read and the records are written (R92, R94). -/
theorem takeParts_recorded {replying : Option MasterId} {inp : AllocInput} {q : Policy} {n : Byte} {b : BandRecord}
    {f r : AxleUnit} {live : Nat} {al : Allocation} (hal : al = formAllocation inp q n b f r live) (t : State) :
    (takeParts writingParts (underwayWith replying inp q n b f r live [.record], t)).2
      = mirrorHandOver replying .stability al.result (mirrorHandOver replying .demand al.result
          (commandHandoff .rear al.rearCommand (commandHandoff .front al.frontCommand t))) := by
  have hrecord : takePart .record (underwayWith replying inp q n b f r live [.record]) t
      = (underwayWith replying inp q n b f r live [.record], t) := by
    rw [takePart_writing (by decide), if_neg (by simp [underwayWith])]
  simp only [takeParts, writingParts, List.foldl_cons, List.foldl_nil, hrecord]
  rw [takePart_underwayWith (by decide) (by decide), takePart_underwayWith (by decide) (by decide),
    takePart_underwayWith (by decide) (by decide), takePart_underwayWith (by decide) (by decide), hal]
  rfl

/-- A record formed for an axle that is not available is STANDBY 0, with the axle's state reported (R84, R88). -/
theorem commandRecord_notAvailable {u : AxleUnit} (h : u.state = .offline ∨ u.state = .rejoining) (n : Byte) (b : Band)
    (p t slew : Int) : commandRecord n u.state.available b (command u.state.available b p t slew)
      = ⟨n, .standby, 0, b.used.ceiling, b.used.floor⟩ := by
  have hn : u.state.available = false := by rcases h with h | h <;> rw [h] <;> rfl
  rw [hn]; rfl

/-- Settles O37: the events by their rows, and each place of an event by the parts taken before and after it. -/
theorem anEventInsideAnAllocationGovernsWhatIsReadAfterIt :
    Obligations.AnEventInsideAnAllocationGovernsWhatIsReadAfterIt := by
  refine ⟨fun replying e t => ⟨fun c => eventAfter_row t, ?_, ?_, fun p => eventAfter_replying t⟩, ?_⟩
  · rintro p f rfl hready hp hkind
    refine eventAfter_request hready hp ?_
    rw [allocatorsOwn_decodeRequest, Bool.and_eq_false_iff, decide_eq_false_iff_not, decide_eq_false_iff_not, not_or]
    by_cases h : p = .demand
    · exact .inr (hkind h)
    · exact .inl h
  · rintro f rfl hready hkind
    refine eventAfter_own hready ?_
    rw [allocatorsOwn_decodeRequest]
    exact decide_eq_true hkind
  · intro replying inp s start e rest form share hstart hshare hform
    obtain rfl : share = fun f r t => shareAct (availability f.state.available r.state.available) inp.load inp.speed t := by
      funext f r t; exact hshare f r t
    obtain rfl : form = fun b f r t =>
        formAllocation inp s.config.policy (s.alloc.counter + 1#8) b f r t.liveShare := by
      funext b f r t; exact hform b f r t
    have hb : bandRecord s.table s.config = bandRecord start.table start.config := by rw [hstart]
    have hf : s.front = start.front := by rw [hstart]
    have hr : s.rear = start.rear := by rw [hstart]
    have hf' : s.front = (claimTableAct start).front := hf.trans (claimTableAct_front start).symm
    have hr' : s.rear = (claimTableAct start).rear := hr.trans (claimTableAct_rear start).symm
    refine ⟨?_, ?_, ?_, ?_, ?_, fun b f r t => ⟨fun h => ⟨?_, rfl⟩, fun h => ⟨?_, rfl⟩⟩⟩
    · rintro t hin rfl
      rw [hb]
      exact (allocateWith_reads hin hstart rfl).1
    · rintro t hin rfl
      rw [hb, hf']
      exact (allocateWith_reads hin hstart rfl).1
    · rintro t hin rfl
      rw [hb, hf', hr']
      exact (allocateWith_reads hin hstart rfl).1
    · rintro t hin rfl
      rw [hf, hr]
      exact (allocateWith_reads hin hstart rfl).1
    · rintro t u al hin hu rfl rfl
      rw [hf', hr'] at hu
      rw [hb, hf', hr']
      have hread := takeMoments_record_event replying inp s.config.policy (s.alloc.counter + 1#8)
        (bandRecord start.table start.config) (claimTableAct start).front (claimTableAct start).rear u.liveShare e u
      rw [← takeMoments_reading replying inp s.config.policy (s.alloc.counter + 1#8) hu, ← takeMoments_append] at hread
      obtain ⟨hformed, hstate⟩ := allocateWith_reads hin hstart hread
      exact Prod.ext hformed (hstate.trans (takeParts_recorded rfl _))
    · exact commandRecord_notAvailable h _ _ _ _ _
    · exact commandRecord_notAvailable h _ _ _ _ _

end Sys2Proof.Machine
end

section
/-! PROOFS. Demand supervision: DEMAND (O38), the lapse (O39, O40, O41) and RESTART (O42). -/

namespace Sys2Proof.Machine

/-! ## DEMAND -/

/-- The ranges of a DEMAND's fields (R132). -/
theorem demandValid_iff (f : Frame) : demandValid (readDemand f) = true ↔
    -32000 ≤ f.signedAt 1 ∧ f.signedAt 1 ≤ 32000 ∧ -2000 ≤ f.signedAt 3 ∧ f.signedAt 3 ≤ 2000 ∧ f.natAt 5 ≤ 100 := by
  simp [demandValid, Config.maxTotalTorque, Config.maxSpeed, Config.maxLoad, and_assoc]

/-- The state in which a DEMAND's allocation starts (R71, R133, R134). -/
theorem enterRunning_taken (f : Frame) (s : State) : enterRunning (readDemand f) (taken .demand s)
    = { taken .demand s with
        holds := if s.alloc.state = .lapsed then s.holds.filter fun h => h.origin = .master else s.holds
        alloc := { s.alloc with
          state := .running
          settled := false
          lapseTimer := .running s.config.timing.lapseTime
          lapseStepTimer := .stopped
          lastSpeed := f.signedAt 3
          lastLoad := f.natAt 5 } } := by
  have horigin : (fun h : HoldRecord => !decide (h.origin = .lapse)) = fun h => decide (h.origin = .master) := by
    funext h; cases h.origin <;> rfl
  unfold enterRunning lapseRemoval
  simp only [taken_alloc, taken_config, taken_holds, horigin]
  split_ifs <;> rfl

/-- An accepted DEMAND answers the record of the allocation it starts (R93, R133). -/
theorem exec_demand_accepted {f : Frame} {s : State} (h : Ready .demand f s) (hk : f.kind = 0x21#8)
    (hs : s.alloc.state ≠ .unconfigured) (hv : demandValid (readDemand f) = true) :
    exec (.demand .demand) s = .next (answered .demand f
      (allocateWith (some .demand) (demandInput (readDemand f)) (enterRunning (readDemand f) (taken .demand s))).1.result.bytes
      (allocateWith (some .demand) (demandInput (readDemand f)) (enterRunning (readDemand f) (taken .demand s))).2) := by
  rw [exec_taken h (decodeRequest_demand .demand hk)]
  simp only [ownerOf, onDemandLink, demandOwner, taken_alloc, if_neg hs, hv]
  rfl

/-- Settles O38. -/
theorem demandIsRefusedOrStartsAnAllocation : Obligations.DemandIsRefusedOrStartsAnAllocation := by
  refine fun f s hready hk => ⟨fun hs => ?_, fun hs => ⟨fun hbad => ?_, ?_⟩⟩
  · rw [exec_taken hready (decodeRequest_demand .demand hk)]
    simp only [ownerOf, onDemandLink, demandOwner, taken_alloc, if_pos hs]
    rfl
  · have hv : (!demandValid (readDemand f)) = true := by
      rw [Bool.not_eq_true', Bool.eq_false_iff, ne_eq, demandValid_iff]; exact hbad
    rw [exec_taken hready (decodeRequest_demand .demand hk)]
    simp only [ownerOf, onDemandLink, demandOwner, taken_alloc, if_neg hs, hv]
    rfl
  · intro inp started h1 h2 h3 h4 h5 hinp hstarted
    have hexec := exec_demand_accepted hready hk hs ((demandValid_iff f).mpr ⟨h1, h2, h3, h4, h5⟩)
    rw [enterRunning_taken, ← hstarted, show demandInput (readDemand f) = inp from hinp.symm] at hexec
    refine ⟨hexec, fun hin => ?_, fun he hl => ?_⟩
    · have hin' : started.inside = [] := by rw [hstarted]; simpa using hin
      rwa [allocateWith_demand_nothingInside inp hin'] at hexec
    · have he' : started.demandPort.alert.mirrorEnable = true := by rw [hstarted]; exact he
      have hl' : started.demandPort.link = .up := by rw [hstarted]; exact hl
      refine ⟨_, (allocateWith (some .demand) inp started).2.demandPort.outgoing, _, hexec, rfl, ?_, ?_⟩
      · rw [← master_demand, answered, master_onMaster, MasterPort.placeReply_outgoing, hk]
        rfl
      · rw [← master_demand, answered, master_onMaster, MasterPort.placeReply_mirrorSlot]
        exact allocateWith_mirrorSlot he' hl'

/-! ## The lapse -/

/-- An event row that finds nothing to act on leaves the state as it was (log 3). -/
theorem exec_event_idle {c : Instr} {s : State} (hc : requestPort c = none) (h1 : c ≠ .resetAssert)
    (h2 : ∀ brs1 brs0, c ≠ .resetRelease brs1 brs0) (h : eventOf c s = s) : exec c s = .next s := by
  by_cases hra : s.resetAsserted = true
  · exact exec_asserted hra h1 h2
  · rw [exec_event hc h1 h2 (by simpa using hra), h]

/-- Settles O39. -/
theorem theLapseTimerExpiryEntersLapsed : Obligations.TheLapseTimerExpiryEntersLapsed := by
  refine ⟨fun s d hra hs ht => ?_, fun s h => ?_⟩
  · rw [exec_event rfl (by simp) (by simp) hra]
    simp only [eventOf, hs, ht]
    rfl
  · refine exec_event_idle rfl (by simp) (by simp) ?_
    simp only [eventOf]
    split
    · next hs ht =>
      rcases h with h | h
      · exact absurd hs h
      · rw [h] at ht; cases ht
    · rfl

/-- The total of a lapse step: moved toward zero by at most the slew (R72). -/
theorem lapseMove_eq (total : Int) (slew : Nat) : lapseMove total slew
    = if total.natAbs ≤ slew then 0 else if 0 < total then total - slew else total + slew := by
  unfold lapseMove
  split_ifs <;> omega

theorem lapseInput_eq (s : State) : lapseInput s
    = ⟨if s.alloc.lastClipped.natAbs ≤ s.config.motion.lapseSlew then 0
        else if 0 < s.alloc.lastClipped then s.alloc.lastClipped - s.config.motion.lapseSlew
        else s.alloc.lastClipped + s.config.motion.lapseSlew,
      s.alloc.lastSpeed, s.alloc.lastLoad, 0#8, .lapsed⟩ := by
  rw [lapseInput, lapseMove_eq]

/-- A lapse step in LAPSED while its timer runs (R138). -/
theorem exec_lapseStep {s : State} {d : Nat} (hra : s.resetAsserted = false) (hs : s.alloc.state = .lapsed)
    (hset : s.alloc.settled = false) (ht : s.alloc.lapseStepTimer = .running d) :
    exec .lapseStep s = .next (lapseStepOf s) := by
  rw [exec_event rfl (by simp) (by simp) hra]
  simp only [eventOf, hs, hset, ht]

/-- Whether an allocation settles the ramp is read from its two COMMAND records (R91, R138). -/
theorem settles_iff (replying : Option MasterId) (inp : AllocInput) (s : State) :
    (allocateWith replying inp s).1.settles = true ↔ (allocateWith replying inp s).1.clipped = 0
      ∧ (allocateWith replying inp s).1.frontCommand.torque = 0
      ∧ (allocateWith replying inp s).1.rearCommand.torque = 0 := by
  simp only [Allocation.settles, Bool.and_eq_true, decide_eq_true_eq, and_assoc]
  rfl

/-- Settles O40. -/
theorem aLapseStepRampsDownAndSettles : Obligations.ALapseStepRampsDownAndSettles := by
  refine ⟨fun s d inp al u settles hra hs hset ht hinp hpair hsettles => ?_, fun s h => ?_⟩
  · rw [← lapseInput_eq] at hinp
    subst hinp
    have hfirst : (allocateWith none (lapseInput s) s).1 = al := by rw [← hpair]
    have hsecond : (allocateWith none (lapseInput s) s).2 = u := by rw [← hpair]
    have hset' : al.settles = settles := by
      rw [Bool.eq_iff_iff, hsettles, ← hfirst]; exact settles_iff _ _ _
    refine ⟨?_, fun hin => ?_⟩
    · rw [exec_lapseStep hra hs hset ht, lapseStepOf, hfirst, hsecond, hset']
      rfl
    · rw [allocateWith_lapse_nothingInside _ hin, Prod.mk.injEq] at hpair
      exact hpair
  · refine exec_event_idle rfl (by simp) (by simp) ?_
    simp only [eventOf]
    split
    · next hs hset ht =>
      rcases h with h | h | h
      · exact absurd hs h
      · rw [h] at hset; cases hset
      · rw [h] at ht; cases ht
    · rfl

/-! ## A MOTION section inside a lapse step -/

/-- A MOTION section taken inside a lapse step is stored (R96, R154). -/
theorem eventAfter_motion {f : Frame} {t : State} (hr : Ready .demand f t) (hk : f.kind = 0x51#8)
    (hid : f.byteAt 0 = 3#8) (hlen : f.payload.length = 9) (hv : motionValid (readMotion f) = true) :
    eventAfter none (.request .demand) t = answered .demand f [0x00#8, 0x03#8]
      { taken .demand t with config := { t.config with motion := readMotion f } } := by
  have hrow : decodeRequest .demand f = .configureMotion .demand := by
    rw [decodeRequest_configure _ hk, hid]; rfl
  have hstored := exec_configure_accepted hr hrow rfl ⟨by simpa using hlen, rfl, rfl, rfl, hv⟩
  have hevent := eventAfter_request (replying := none) hr (by simp) (by rw [hrow]; rfl)
  rw [hrow, hstored] at hevent
  exact (Host.Outcome.next.inj hevent).symm

/-- Of the writing parts none changes the configuration or the live share. -/
theorem takeParts_writing_kept {xs : List AllocPart} (hxs : ∀ x ∈ xs, x ∈ writingParts) (ws : Allocating × State) :
    (takeParts xs ws).2.config = ws.2.config ∧ (takeParts xs ws).2.liveShare = ws.2.liveShare := by
  have hwrite : ∀ x r (al : Allocation) (t : State), (writePart r x al t).config = t.config
      ∧ (writePart r x al t).liveShare = t.liveShare := by
    intro x r al t
    cases x <;> simp [writePart, recordAllocation, mirrorHandOver]
  induction xs generalizing ws with
  | nil => exact ⟨rfl, rfl⟩
  | cons x xs ih =>
    have hpart : (takePart x ws.1 ws.2).2.config = ws.2.config ∧ (takePart x ws.1 ws.2).2.liveShare = ws.2.liveShare := by
      rw [takePart_writing (hxs x List.mem_cons_self)]
      split_ifs
      · exact hwrite _ _ _ _
      · exact ⟨rfl, rfl⟩
    obtain ⟨hc, hl⟩ := ih (fun y hy => hxs y (List.mem_cons_of_mem _ hy)) (takePart x ws.1 ws.2)
    exact ⟨hc.trans hpart.1, hl.trans hpart.2⟩

/-- An allocation keeps as its result what it forms (R70). -/
theorem allocateWith_lastResult (replying : Option MasterId) (inp : AllocInput) (s : State) :
    (allocateWith replying inp s).2.alloc.lastResult = some (allocateWith replying inp s).1.result := by
  have hdone : AllocPart.record ∈ (allocating replying inp s).1.done := by
    rw [allocating_eq]
    exact mem_takeParts_done _ (allocating_formed replying inp s rfl).1 (by decide) (by decide)
  exact ((allocating_underway replying inp s).recorded hdone).2

/-- A lapse step inside which moments fall, by what its allocation reads and the state its reading parts leave. -/
theorem exec_lapseStep_reads {s : State} {d : Nat} (hra : s.resetAsserted = false) (hs : s.alloc.state = .lapsed)
    (hset : s.alloc.settled = false) (ht : s.alloc.lapseStepTimer = .running d) {ms : List AllocMoment}
    {rest : List (List AllocMoment)} (h : s.inside = ms :: rest) {b : BandRecord} {f r : AxleUnit} {live : Nat} {u : State}
    {done : List AllocPart}
    (hread : takeParts readingParts (takeMoments ms (underwayWith none (lapseInput s) s.config.policy
        (s.alloc.counter + 1#8) none none none none [], startedFrom s rest))
      = (underwayWith none (lapseInput s) s.config.policy (s.alloc.counter + 1#8) b f r live done, u)) :
    ∃ t, exec .lapseStep s = .next t ∧ t.config = u.config ∧ t.liveShare = u.liveShare
      ∧ t.alloc.lastResult
        = some (formAllocation (lapseInput s) s.config.policy (s.alloc.counter + 1#8) b f r live).result := by
  obtain ⟨hformed, hstate⟩ := allocateWith_reads h rfl hread
  obtain ⟨hconfig, hlive⟩ := takeParts_writing_kept (fun _ h => h)
    (underwayWith none (lapseInput s) s.config.policy (s.alloc.counter + 1#8) b f r live done, u)
  rw [← hstate] at hconfig hlive
  refine ⟨_, exec_lapseStep hra hs hset ht, hconfig, hlive, ?_⟩
  rw [← hformed]
  exact allocateWith_lastResult none (lapseInput s) s

/-- The live share of share control's act with both axles available (R43). -/
theorem shareAct_both {av : Availability} (h : av = .both) (load : Nat) (speed : Int) (t : State) :
    (shareAct av load speed t).liveShare
      = moveShare t.liveShare (governingShare t load speed) t.config.motion.shareSlew := by
  rw [h]; rfl

/-- Settles O41: the act before the request reads the old section, the act after it the new one. -/
theorem aMotionTakenBetweenTheActsGovernsTheLaterOne : Obligations.AMotionTakenBetweenTheActsGovernsTheLaterOne := by
  intro f s d g m inp rest moved hready hs hset ht hk hid hlen h1 h2 h3 h4 h5 h6 h7 h8 hm hfront hrear hg hmoved hinp
  have hv : motionValid (readMotion f) = true := (motionValid_iff _).mpr ⟨⟨h1, h2⟩, ⟨h3, h4⟩, ⟨h5, h6⟩, ⟨h7, h8⟩⟩
  obtain rfl : m = readMotion f := hm
  obtain rfl : inp = lapseInput s := hinp.trans (lapseInput_eq s).symm
  obtain rfl : moved = moveShare s.liveShare g := funext hmoved
  have hgov : governingShare s s.alloc.lastLoad s.alloc.lastSpeed = g := hg.symm
  have hboth : availability s.front.state.available s.rear.state.available = .both := by
    rw [(AxleState.available_iff _).mpr hfront, (AxleState.available_iff _).mpr hrear]; rfl
  obtain ⟨hra, hhead, hroom⟩ := hready
  constructor
  · intro hin
    generalize hu : shareAct (availability s.front.state.available s.rear.state.available) s.alloc.lastLoad
      s.alloc.lastSpeed (startedFrom s rest) = u
    have hmotion := eventAfter_motion (t := u) ⟨by rw [← hu, shareAct_resetAsserted]; exact hra,
      by rw [← hu, shareAct_master]; exact hhead, by rw [← hu, shareAct_master]; exact hroom⟩ hk hid hlen hv
    generalize hw : eventAfter none (.request .demand) u = w at hmotion
    have hread : takeParts readingParts (takeMoments [.part (.read .front), .part (.read .rear), .part .share,
          .event (.request .demand)] (underwayWith none (lapseInput s) s.config.policy (s.alloc.counter + 1#8) none none
          none none [], startedFrom s rest))
        = (underwayWith none (lapseInput s) s.config.policy (s.alloc.counter + 1#8) (some (bandRecord w.table w.config))
          (some s.front) (some s.rear) (some u.liveShare) [], claimTableAct w) := by
      rw [← hw, ← hu]; rfl
    obtain ⟨t, hexec, hconfig, hlive, hresult⟩ := exec_lapseStep_reads hra hs hset ht hin hread
    have hul : u.liveShare = moveShare s.liveShare g s.config.motion.shareSlew := by
      rw [← hu, shareAct_both hboth, ← hgov]; rfl
    have huc : u.config = s.config := by rw [← hu, shareAct_config]; rfl
    have hut : u.table = s.table := by rw [← hu, shareAct_table]; rfl
    refine ⟨t, hexec, ?_, ?_, ?_⟩
    · rw [hconfig, claimTableAct_config, hmotion]
      simp [answered]
    · rw [hlive, claimTableAct_liveShare, hmotion, ← hul]
      simp [answered]
    · rw [hresult, hul, hmotion]
      simp [answered, huc, hut]
  · intro hin
    generalize hu : claimTableAct (startedFrom s rest) = u
    have hmotion := eventAfter_motion (t := u) ⟨by rw [← hu, claimTableAct_resetAsserted]; exact hra,
      by rw [← hu, claimTableAct_master]; exact hhead, by rw [← hu, claimTableAct_master]; exact hroom⟩ hk hid hlen hv
    generalize hw : eventAfter none (.request .demand) u = w at hmotion
    have hread : takeParts readingParts (takeMoments [.part .claimTable, .event (.request .demand)]
          (underwayWith none (lapseInput s) s.config.policy (s.alloc.counter + 1#8) none none none none [],
          startedFrom s rest))
        = (underwayWith none (lapseInput s) s.config.policy (s.alloc.counter + 1#8)
          (some (bandRecord s.table s.config)) (some w.front) (some w.rear)
          (some (shareAct (availability w.front.state.available w.rear.state.available) s.alloc.lastLoad
            s.alloc.lastSpeed w).liveShare) [],
          shareAct (availability w.front.state.available w.rear.state.available) s.alloc.lastLoad s.alloc.lastSpeed w) := by
      rw [← hw, ← hu]; rfl
    obtain ⟨t, hexec, hconfig, hlive, hresult⟩ := exec_lapseStep_reads hra hs hset ht hin hread
    have hwf : w.front = s.front := by
      rw [hmotion, ← hu]; simp [answered, startedFrom]
    have hwr : w.rear = s.rear := by
      rw [hmotion, ← hu]; simp [answered, startedFrom]
    have hwl : (shareAct (availability w.front.state.available w.rear.state.available) s.alloc.lastLoad
        s.alloc.lastSpeed w).liveShare = moveShare s.liveShare g (readMotion f).shareSlew := by
      rw [shareAct_both (by rw [hwf, hwr]; exact hboth), hmotion, ← hu, ← hgov]
      simp [answered, startedFrom, governingShare, mapShare]
    refine ⟨t, hexec, ?_, hlive.trans hwl, ?_⟩
    · rw [hconfig, shareAct_config, hmotion]
      simp [answered]
    · rw [hresult, hwl, hwf, hwr]

/-! ## RESTART -/

theorem MasterPort.sendBreak_eq {breakAfter : MasterTx → MasterTx} (h : ∀ tx, breakAfter tx = (match tx with
    | .idle => .breaking
    | .sending r _ => .sending r true
    | .breaking => .breaking)) (m : MasterPort) : m.sendBreak = { m with tx := breakAfter m.tx } := by
  rw [h]
  rcases m with ⟨link, receiver, rx, wait, hold, reply, mirror, tx, alert⟩
  cases tx <;> rfl

/-- Settles O42: the owner's `restartAll`, field by field. -/
theorem restartResetsAllocationAndKeepsTheRest : Obligations.RestartResetsAllocationAndKeepsTheRest := by
  intro f s after resetAxle breakAfter hready hk hafter hreset hbreak
  have haxle : ∀ u : AxleUnit, u.restart = resetAxle u := by
    intro u
    rw [hreset]
    rcases u with ⟨link, receiver, tx, slot, state⟩
    cases tx <;> rfl
  have hrestart : (taken .demand s).alloc.restart = ⟨after, false, .stopped, .stopped, 0#8, 0, 0, 0, none⟩ := by
    rw [hafter, taken_alloc]; rfl
  have hcode : byteOf after.code = if after = .unconfigured then 0x00#8 else 0x01#8 := by
    by_cases h : s.alloc.state = .unconfigured
    · rw [hafter, if_pos h]; rfl
    · rw [hafter, if_neg h]; rfl
  have hstability : (taken .demand s).stabilityPort = s.stabilityPort := rfl
  rw [exec_taken hready (decodeRequest_restart .demand hk)]
  simp only [ownerOf, onDemandLink, restartOwner, restartAll, haxle, hrestart, hcode, MasterPort.sendBreak_eq hbreak,
    hstability]
  rfl

end Sys2Proof.Machine
end

section
/-! PROOFS. Axle supervision: COMMAND completion (O47), misses (O48), FEEDBACK (O49, O50) and a link break (O52). -/

namespace Sys2Proof.Machine

/-! ## COMMAND completion -/

/-- Settles O47. -/
theorem commandCompletionStartsTheWindow : Obligations.CommandCompletionStartsTheWindow := by
  refine fun a s r hra => ⟨fun ht => ?_, fun ht => ?_, fun ht => ?_, fun u => ⟨fun q ht hs hl => ?_, fun h => ?_⟩⟩
  · rw [exec_event rfl (by simp) (by simp) hra, onAxle_onAxle]
    simp only [eventOf, ht, countMiss]
    rcases ho : (s.axle a).outstanding with _ | n
    · simp only [Option.isSome_none, Bool.false_eq_true, if_false, if_true, onAxle_onAxle]
      rfl
    · simp only [Option.isSome_some, if_true, reduceCtorEq, if_false]
      rfl
  · rw [exec_event rfl (by simp) (by simp) hra]
    simp only [eventOf, ht]
  · refine exec_event_idle rfl (by simp) (by simp) ?_
    rcases ht with ht | ht <;> simp only [eventOf, ht]
  · simp [AxleUnit.takePending, ht, hs, hl]
  · rcases u.takePending_cases with e | ⟨q, ht, hs, hl, -⟩
    · exact e
    · rcases h with h | h | h
      · exact absurd ht h
      · rw [h] at hs; cases hs
      · exact absurd hl h

/-! ## Misses -/

/-- Entering OFFLINE, with what it does to the axle, its inverter's entries and the flags (R25, R116, R117). -/
theorem goOffline_eq (a : AxleId) (s : State) :
    goOffline a s = if (s.axle a).state = .offline then s else enteredOffline a s := by
  unfold goOffline enteredOffline
  split_ifs
  · rfl
  · have hlose : AxleUnit.loseAxle = fun u => { u with
        state := .offline
        missCount := 0
        goodCount := 0
        lastCommanded := 0
        slot := u.slot.map fun r => if r.mode = .drive then { r with mode := .standby, torque := 0 } else r } := by
      funext u
      have hslot : u.slot.map CommandRecord.toStandby
          = u.slot.map fun r => if r.mode = .drive then { r with mode := .standby, torque := 0 } else r := by
        refine congrArg (u.slot.map ·) (funext fun r => ?_)
        rcases r with ⟨n, mode, v, c, f⟩
        cases mode <;> rfl
      rw [AxleUnit.loseAxle, hslot]
    rw [hlose]
    cases a <;> rfl

/-- Settles O48. -/
theorem aWindowExpiryCountsAMiss : Obligations.AWindowExpiryCountsAMiss := by
  refine ⟨fun a s d hra hw ho => ?_, fun a s hw => ?_, fun a s => ⟨fun h => ?_, fun h => ?_, fun h => ⟨fun hm => ?_, fun hm => ?_⟩,
    fun h => ⟨fun hm => ?_, fun hm => ?_⟩⟩⟩
  · rw [exec_event rfl (by simp) (by simp) hra]
    simp only [eventOf, hw, Timer.isRunning, if_true, countMiss]
    rw [if_pos (Option.isSome_iff_ne_none.mpr ho)]
    rfl
  · refine exec_event_idle rfl (by simp) (by simp) ?_
    simp [eventOf, hw, Timer.isRunning]
  · simp [miss, h]
  · simp [miss, h, goOffline_eq]
  · simp [miss, h, goOffline_eq, hm]
  · simp [miss, h, Nat.not_le.mpr hm]
  · simp [miss, h, goOffline_eq, hm]
  · simp [miss, h, Nat.not_le.mpr hm]

/-! ## FEEDBACK -/

/-- A two-byte field in two's complement, its high byte first (R176). -/
theorem toInt_append (hi lo : Byte) : (hi ++ lo : Half).toInt
    = if hi.toNat < 128 then (256 * hi.toNat + lo.toNat : Int) else 256 * hi.toNat + lo.toNat - 65536 := by
  have hn : (hi ++ lo : Half).toNat = 256 * hi.toNat + lo.toNat := by
    rw [BitVec.toNat_append, ← Nat.shiftLeft_add_eq_or_of_lt lo.isLt, Nat.shiftLeft_eq]
    omega
  have hlo := lo.isLt
  rw [BitVec.toInt_eq_toNat_cond, hn]
  split_ifs <;> omega

/-- The layout of FEEDBACK (R183). -/
theorem readFeedback_layout {f : Frame} {echo ind torqueHi torqueLo speedHi speedLo ctl ceilHi ceilLo floorHi floorLo : Byte}
    (h : f.payload = [echo, ind, torqueHi, torqueLo, speedHi, speedLo, ctl]
      ++ (if ctl.getLsbD 0 then [ceilHi, ceilLo] else []) ++ (if ctl.getLsbD 1 then [floorHi, floorLo] else [])) :
    (readFeedback f).sequence = echo ∧ (readFeedback f).ready = ind.getLsbD 0
      ∧ (readFeedback f).delivered = (torqueHi ++ torqueLo : Half).toInt
      ∧ (readFeedback f).speed = (speedHi ++ speedLo : Half).toInt
      ∧ (readFeedback f).ceilingPresent = ctl.getLsbD 0 ∧ (readFeedback f).floorPresent = ctl.getLsbD 1
      ∧ (readFeedback f).clearCeiling = ctl.getLsbD 2 ∧ (readFeedback f).clearFloor = ctl.getLsbD 3
      ∧ (ctl.getLsbD 0 = true → (readFeedback f).ceiling = (ceilHi ++ ceilLo : Half).toInt)
      ∧ (ctl.getLsbD 1 = true → (readFeedback f).floor = (floorHi ++ floorLo : Half).toInt) := by
  rcases f with ⟨kind, payload⟩
  subst h
  cases h0 : ctl.getLsbD 0 <;> cases h1 : ctl.getLsbD 1 <;>
    simp [Frame.signedAt, Frame.halfAt, Frame.byteAt, h0, h1, -BitVec.getLsbD_eq_getElem]

theorem feedbackConsistent_iff (f : Frame) : feedbackConsistent (readFeedback f) f.payload.length = true ↔
    f.payload.length = 7 + (if (readFeedback f).ceilingPresent then 2 else 0)
        + (if (readFeedback f).floorPresent then 2 else 0)
      ∧ ¬ ((readFeedback f).ceilingPresent = true ∧ (readFeedback f).clearCeiling = true)
      ∧ ¬ ((readFeedback f).floorPresent = true ∧ (readFeedback f).clearFloor = true) := by
  have hlen : feedbackLength (readFeedback f) = 7 + (if (readFeedback f).ceilingPresent then 2 else 0)
      + (if (readFeedback f).floorPresent then 2 else 0) := by
    unfold feedbackLength
    cases (readFeedback f).ceilingPresent <;> cases (readFeedback f).floorPresent <;> rfl
  simp only [feedbackConsistent, hlen, Bool.and_eq_true, decide_eq_true_eq, Bool.not_eq_true', Bool.eq_false_iff, ne_eq,
    and_assoc]

/-- The check character of a FEEDBACK on an UP link: the frame goes to the supervisor (R181). -/
theorem exec_feedback {a : AxleId} {f : Frame} {s : State} (h : Completing (.axle a) f s) (hk : f.kind = 0x91#8) :
    exec (.feedback a) s = .next (feedbackTaken a f (s.setReceiver (.axle a) .idle)) := by
  obtain ⟨hra, hl, hf⟩ := h
  rw [exec_event rfl (by simp) (by simp) hra]
  simp only [eventOf, hf]
  rw [if_pos ⟨hl, hk⟩]

/-- Settles O49. -/
theorem aMatchedFeedbackAdvancesTheAxle : Obligations.AMatchedFeedbackAdvancesTheAxle := by
  constructor
  · rintro f b echo ind torqueHi torqueLo speedHi speedLo ctl ceilHi ceilLo floorHi floorLo signed rfl hsigned hpayload
    simp only [hsigned, ← toInt_append]
    exact readFeedback_layout hpayload
  · rintro a f b s stored ceiling floor hc hk rfl hlen hcc hff hout hstored hceiling hfloor
    have hcons := (feedbackConsistent_iff f).mpr ⟨hlen, hcc, hff⟩
    have hout' : ((s.setReceiver (.axle a) .idle).axle a).outstanding = some (readFeedback f).sequence := by
      rw [← hout, State.setReceiver, axle_onAxle]
    have hst : (s.setReceiver (.axle a) .idle).onAxle a (AxleUnit.storeFeedback (readFeedback f)) = stored := by
      rw [hstored, State.setReceiver, onAxle_onAxle]; rfl
    have haxle : (stored.axle a).state = (s.axle a).state ∧ (stored.axle a).goodCount = (s.axle a).goodCount
        ∧ stored.config = s.config := by
      rw [hstored, axle_onAxle]; exact ⟨rfl, rfl, onAxle_config s a _⟩
    obtain ⟨hstate, hgood, hconfig⟩ := haxle
    rw [exec_feedback hc hk, feedbackTaken, hcons, if_neg (by simp), if_pos hout', matchedFeedback, hst]
    refine ⟨fun hready => ?_, fun hready good advanced hg hadv => ?_⟩
    · rw [hready, if_neg (by simp), goOffline_eq, hstate]
    · have hanswer : readyAnswer a stored = advanced := by
        unfold readyAnswer countGood goOnline
        rw [hadv, hg, hstate, hgood, hconfig]
        cases (s.axle a).state <;> rfl
      rw [hready, if_pos rfl, derateHandoff, hanswer, hceiling, hfloor]
      rfl

/-- Settles O50. -/
theorem anUnmatchedAxleFrameOnlySetsItsFlag : Obligations.AnUnmatchedAxleFrameOnlySetsItsFlag := by
  refine ⟨?_, fun a s => ⟨fun h => ⟨?_, ?_⟩, fun f hf => ⟨fun hk => ?_, fun hk => ?_⟩⟩⟩
  · rintro a f b consistent s hc rfl hcons
    have hcons' : feedbackConsistent (readFeedback f) f.payload.length = consistent := by
      rw [Bool.eq_iff_iff, feedbackConsistent_iff]; exact hcons.symm
    refine ⟨fun hk hbad => ?_, fun hk hgood hout => ?_, fun hk => ?_⟩
    · rw [exec_feedback hc hk, feedbackTaken, hcons', hbad]
      rfl
    · have hout' : ((s.setReceiver (.axle a) .idle).axle a).outstanding ≠ some (readFeedback f).sequence := by
        rw [State.setReceiver, axle_onAxle]; exact hout
      rw [exec_feedback hc hk, feedbackTaken, hcons', hgood, if_neg (by simp), if_neg hout']
    · obtain ⟨hra, hl, hf⟩ := hc
      rw [exec_event rfl (by simp) (by simp) hra]
      simp only [eventOf, hf]
      rw [if_pos ⟨hl, hk⟩]
  · refine exec_event_idle rfl (by simp) (by simp) ?_
    simp only [eventOf]
    split
    · next f hf =>
      rcases h with h | h
      · exact absurd (hf.symm.trans h) (by simp)
      · exact if_neg fun hup => h hup.1
    · rfl
  · refine exec_event_idle rfl (by simp) (by simp) ?_
    simp only [eventOf]
    split
    · next f hf =>
      rcases h with h | h
      · exact absurd (hf.symm.trans h) (by simp)
      · exact if_neg fun hup => h hup.1
    · rfl
  · refine exec_event_idle rfl (by simp) (by simp) ?_
    simp only [eventOf, State.receiverOf, hf]
    exact if_neg fun hup => hk hup.2
  · refine exec_event_idle rfl (by simp) (by simp) ?_
    simp only [eventOf, State.receiverOf, hf]
    exact if_neg fun hup => hup.2 hk

/-! ## A link break -/

/-- Settles O52. -/
theorem anAxleLinkBreakPutsTheAxleOffline : Obligations.AnAxleLinkBreakPutsTheAxleOffline := by
  refine ⟨fun a s broken hra hl hbroken => ?_, fun a s hl => ?_⟩
  · have hb : s.onAxle a AxleUnit.linkBroken = broken := by
      rw [hbroken]
      refine congrArg (s.onAxle a) (funext fun u => ?_)
      rcases u with ⟨link, receiver, tx, slot⟩
      rcases tx with _ | ⟨r, b⟩ | _
      · rfl
      · cases b <;> rfl
      · rfl
    have hstate : (broken.axle a).state = (s.axle a).state := by
      rw [hbroken, axle_onAxle]
    rw [exec_event rfl (by simp) (by simp) hra]
    simp only [eventOf]
    rw [if_pos hl, hb, goOffline_eq, hstate]
  · exact exec_event_idle rfl (by simp) (by simp) (if_neg hl)

end Sys2Proof.Machine
end

section
/-! PROOFS. Serial links: completed frames (O54), characters (O55), receive faults and gaps (O56), a master link break
(O57), links up and transmitters going on (O58). -/

namespace Sys2Proof.Machine

/-! ## Ports and receivers changed in turn -/

theorem onMaster_onMaster (s : State) (p : MasterId) (g h : MasterPort → MasterPort) :
    (s.onMaster p g).onMaster p h = s.onMaster p fun m => h (g m) := by
  cases p <;> rfl

theorem onMaster_self (s : State) (p : MasterId) : (s.onMaster p fun m => m) = s := by
  cases p <;> rfl

theorem onMaster_congr {s : State} {p : MasterId} {g h : MasterPort → MasterPort}
    (e : g (s.master p) = h (s.master p)) : s.onMaster p g = s.onMaster p h :=
  congrArg (s.setMaster p) e

theorem setReceiver_self {s : State} {l : Link} {r : Receiver} (h : s.receiverOf l = r) : s.setReceiver l r = s := by
  subst h
  rcases l with p | a
  · exact onMaster_self s p
  · exact onAxle_self s a

/-! ## Completed frames -/

/-- The check character of a frame on an UP master link: the frame is handed inward (R177). -/
theorem exec_frameReceived {p : MasterId} {f : Frame} {s : State} (h : Completing (.master p) f s) :
    exec (.frameReceived p) s = .next (masterFrameTaken p f (s.setReceiver (.master p) .idle)) := by
  obtain ⟨hra, hl, hf⟩ := h
  rw [exec_event rfl (by simp) (by simp) hra]
  simp only [eventOf, hf, hl, if_true]

/-- A frame that finds room joins the queue, which then holds one frame at least (R159, R180). -/
theorem MasterPort.enqueue_eq (f : Frame) (m : MasterPort) : m.enqueue f = { m with
    rxQueue := m.rxQueue ++ [f]
    holdoff := decide (3 ≤ m.rxQueue.length)
    waitingForRoom := decide (4 ≤ m.replyQueue.length) } := by
  simp [MasterPort.enqueue, MasterPort.judge, Config.receiveQueueSize, Config.replyQueueSize]

theorem masterFrameTaken_room {p : MasterId} {f : Frame} {s : State} (h : (s.master p).rxQueue.length < 4) :
    masterFrameTaken p f s = s.onMaster p fun m => { m with
      rxQueue := m.rxQueue ++ [f]
      holdoff := decide (m.rxQueue.length = 3)
      waitingForRoom := decide (4 ≤ m.replyQueue.length) } := by
  have hthree : decide (3 ≤ (s.master p).rxQueue.length) = decide ((s.master p).rxQueue.length = 3) :=
    decide_eq_decide.mpr (by omega)
  rw [masterFrameTaken, if_pos h]
  refine onMaster_congr ?_
  rw [MasterPort.enqueue_eq, hthree]

theorem masterFrameTaken_full {p : MasterId} {f : Frame} {s : State} (h : 4 ≤ (s.master p).rxQueue.length) :
    masterFrameTaken p f s = raise p .frameDropped s :=
  if_neg (Nat.not_lt.mpr h)

theorem setReceiver_master_rxQueue (s : State) (p : MasterId) (r : Receiver) :
    ((s.setReceiver (.master p) r).master p).rxQueue = (s.master p).rxQueue := by
  rw [State.setReceiver, master_onMaster]

/-- Settles O54. -/
theorem aCompletedFrameJoinsTheQueueOrIsDropped : Obligations.ACompletedFrameJoinsTheQueueOrIsDropped := by
  refine ⟨fun p f s hc => ⟨fun hroom => ?_, fun hfull => ?_⟩, fun p s h => ?_⟩
  · rw [exec_frameReceived hc, masterFrameTaken_room (by rwa [setReceiver_master_rxQueue]), State.setReceiver,
      onMaster_onMaster]
  · rw [exec_frameReceived hc, masterFrameTaken_full (by rwa [setReceiver_master_rxQueue])]
  · refine exec_event_idle rfl (by simp) (by simp) ?_
    simp only [eventOf, State.receiverOf]
    rcases h with h | h
    · rw [h]
    · split
      · exact if_neg h
      · rfl

/-! ## The bits of a character -/

theorem oddOnes_eq_countP (xs : List Bool) : oddOnes xs = decide (xs.countP id % 2 = 1) := by
  induction xs with
  | nil => rfl
  | cons x xs ih =>
    rw [← List.singleton_append, oddOnes_append, ih, List.singleton_append, List.countP_cons]
    cases x
    · simp [oddOnes]
    · rcases Nat.mod_two_eq_zero_or_one (xs.countP id) with h | h <;> simp [oddOnes, h, Nat.add_mod]

/-- The ten bits between start and stop are data, mark and parity (R173). -/
theorem dataBits_characterData (c : LineCharacter) : dataBits (characterData c) ++ [c.getLsbD 9, c.getLsbD 10]
    = (List.range 10).map fun i => c.getLsbD (i + 1) := by
  simp [dataBits, characterData, List.range_succ, Nat.add_comm 1]

/-- The parity that a receiver judges (R173, R177). -/
theorem oddOnes_character (c : LineCharacter) :
    oddOnes (dataBits (characterData c) ++ [c.getLsbD 9, c.getLsbD 10])
      = decide (((List.range 10).countP fun i => c.getLsbD (i + 1)) % 2 = 1) := by
  rw [dataBits_characterData, oddOnes_eq_countP, List.countP_map]
  rfl

theorem characterData_eq_iff (c : LineCharacter) (b : Byte) :
    characterData c = b ↔ ∀ i, i < 8 → c.getLsbD (i + 1) = b.getLsbD i := by
  have hbit : ∀ i, i < 8 → (characterData c).getLsbD i = c.getLsbD (i + 1) := fun i hi => by
    rw [characterData, BitVec.getLsbD_extractLsb', Nat.add_comm 1 i]
    simp [hi]
  refine ⟨fun h i hi => by rw [← h, hbit i hi], fun h => ?_⟩
  exact BitVec.eq_of_getLsbD_eq fun i hi => (hbit i hi).trans (h i hi)

/-- A character is given by its start, its data, its mark, its parity and its stop (R173). -/
theorem lineCharacter_ext {c d : LineCharacter} (hstart : c.getLsbD 0 = d.getLsbD 0)
    (hdata : characterData c = characterData d) (hmark : c.getLsbD 9 = d.getLsbD 9)
    (hparity : c.getLsbD 10 = d.getLsbD 10) (hstop : c.getLsbD 11 = d.getLsbD 11) : c = d := by
  have hd := (characterData_eq_iff c _).mp hdata
  have hd' := (characterData_eq_iff d _).mp rfl
  refine BitVec.eq_of_getLsbD_eq fun i hi => ?_
  rcases i with _ | i
  · exact hstart
  · by_cases h8 : i < 8
    · rw [hd i h8, hd' i h8]
    · obtain rfl | rfl | rfl : i = 8 ∨ i = 9 ∨ i = 10 := by omega
      · exact hmark
      · exact hparity
      · exact hstop

theorem eq_lineCharacter_iff (marked : Bool) (b : Byte) (c : LineCharacter) : c = lineCharacter marked b ↔
    c.getLsbD 0 = false ∧ (∀ i, i < 8 → c.getLsbD (i + 1) = b.getLsbD i) ∧ c.getLsbD 9 = marked
      ∧ ((List.range 10).countP fun i => c.getLsbD (i + 1)) % 2 = 0 ∧ c.getLsbD 11 = true := by
  have heven : ((List.range 10).countP fun i => c.getLsbD (i + 1)) % 2 = 0
      ↔ oddOnes (dataBits (characterData c) ++ [c.getLsbD 9]) = c.getLsbD 10 := by
    have hodd := oddOnes_character c
    rw [← List.singleton_append, ← List.append_assoc, oddOnes_append] at hodd
    have hone : oddOnes [c.getLsbD 10] = c.getLsbD 10 := by simp [oddOnes]
    rw [hone] at hodd
    have hxor : oddOnes (dataBits (characterData c) ++ [c.getLsbD 9]) = c.getLsbD 10
        ↔ xor (oddOnes (dataBits (characterData c) ++ [c.getLsbD 9])) (c.getLsbD 10) = false := bne_eq_false_iff_eq.symm
    rw [hxor, hodd, decide_eq_false_iff_not]
    omega
  rw [← characterData_eq_iff, heven]
  constructor
  · rintro rfl
    rw [characterData_lineCharacter, lineCharacter_start, lineCharacter_mark, lineCharacter_parity, lineCharacter_stop]
    exact ⟨rfl, rfl, rfl, rfl, rfl⟩
  · rintro ⟨hstart, hdata, hmark, hparity, hstop⟩
    refine lineCharacter_ext (hstart.trans (lineCharacter_start ..).symm)
      (hdata.trans (characterData_lineCharacter ..).symm) (hmark.trans (lineCharacter_mark ..).symm) ?_
      (hstop.trans (lineCharacter_stop ..).symm)
    rw [← hparity, hdata, hmark, lineCharacter_parity]

/-! ## Payload lengths -/

theorem and_ite_iff {m a b c d e f : Prop} [Decidable c] [Decidable d] (hcd : c ↔ d) (ha : m ∧ a ↔ e)
    (hb : m ∧ b ↔ f) : (m ∧ if c then a else b) ↔ if d then e else f := by
  by_cases h : c
  · rw [if_pos h, if_pos (hcd.mp h), ha]
  · rw [if_neg h, if_neg fun hd => h (hcd.mpr hd), hb]

/-- The payload lengths of a master link (R179). -/
theorem lengthAllowed_master (p : MasterId) (k : Byte) (n : Nat) : lengthAllowed (.master p) k n = true ↔
    (if k = 0x21#8 ∨ k = 0x31#8 then n = 7
     else if k = 0x32#8 ∨ k = 0x54#8 then n = 2
     else if k = 0x41#8 then n = 4
     else if k = 0x53#8 ∨ k = 0x62#8 then n = 1
     else if k = 0x33#8 ∨ k = 0x42#8 ∨ k = 0x61#8 ∨ k = 0x63#8 ∨ k = 0x7E#8 then n = 0
     else if k = 0x51#8 then 1 ≤ n ∧ n ≤ 13
     else if k = 0x52#8 then 3 ≤ n ∧ n ≤ 19
     else n ≤ 24) := by
  simp only [lengthAllowed, Config.maxPayload, Bool.and_eq_true, Bool.ite_eq_true_distrib, decide_eq_true_eq]
  iterate 7 refine and_ite_iff Iff.rfl (by omega) ?_
  exact and_iff_left trivial

/-- The payload lengths of an axle link (R179). -/
theorem lengthAllowed_axle (a : AxleId) (k : Byte) (n : Nat) : lengthAllowed (.axle a) k n = true ↔
    (if k = 0x91#8 then n = 7 ∨ n = 9 ∨ n = 11 else n ≤ 24) := by
  simp only [lengthAllowed, Config.maxPayload, Bool.and_eq_true, Bool.ite_eq_true_distrib, decide_eq_true_eq]
  exact and_ite_iff Iff.rfl (by omega) (and_iff_left trivial)

/-! ## Correct characters -/

/-- A fault sets its flag, with its kind on a master link, and moves the receiver (R178). -/
theorem faultTo_eq (l : Link) (k : LinkFault) (r : Receiver) (s : State) :
    faultTo l k r s = faultReported l k (s.setReceiver l r) := by
  rcases l with p | a
  · cases p <;> rfl
  · rfl

theorem exec_characterReceived {l : Link} {s : State} (hra : s.resetAsserted = false) (hl : s.linkOf l = .up)
    (marked : Bool) (b : Byte) : exec (.characterReceived l marked b) s = .next (correctCharacter l marked b s) := by
  rw [exec_event rfl (by simp) (by simp) hra]
  exact congrArg _ (if_pos hl)

/-- The check character brings the sum of the frame's bytes to zero (R176). -/
theorem eq_check_iff (f : Frame) (b : Byte) :
    b = f.check ↔ (f.kind :: byteOf f.payload.length :: f.payload).foldl (· + ·) b = 0#8 := by
  have hsum : (f.kind :: byteOf f.payload.length :: f.payload).foldl (· + ·) b = b + f.sum := by
    have hassoc := List.foldl_assoc (op := fun x y : Byte => x + y)
      (l := f.kind :: byteOf f.payload.length :: f.payload) (a₁ := b) (a₂ := 0#8)
    rwa [BitVec.add_zero] at hassoc
  rw [hsum, Frame.check]
  exact eq_neg_iff_add_eq_zero

/-- The row whose step a whole frame on a link completes. -/
def completion : Link → Frame → Instr
  | .master p, _ => .frameReceived p
  | .axle a, f => if f.kind = Kind.feedback then .feedback a else .axleForeignFrame a

/-- The completion of a frame hands it inward (R177). -/
theorem exec_completion {l : Link} {f : Frame} {s : State} (h : Completing l f s) :
    exec (completion l f) s = .next (frameTaken l f (s.setReceiver l .idle)) := by
  rcases l with p | a
  · exact exec_frameReceived h
  · show exec (if f.kind = Kind.feedback then .feedback a else .axleForeignFrame a) s
      = .next (axleFrameTaken a f (s.setReceiver (.axle a) .idle))
    rw [axleFrameTaken]
    split_ifs with hk
    · exact exec_feedback h hk
    · obtain ⟨hra, hl, hf⟩ := h
      rw [exec_event rfl (by simp) (by simp) hra]
      simp only [eventOf, hf]
      rw [if_pos ⟨hl, hk⟩]

/-- Settles O55. -/
theorem charactersAssembleFrames : Obligations.CharactersAssembleFrames := by
  refine ⟨eq_lineCharacter_iff, lengthAllowed_master, lengthAllowed_axle, fun l b s hra => ⟨fun hl marked => ?_, fun hl => ?_⟩⟩
  · exact exec_event_idle rfl (by simp) (by simp) (if_neg hl)
  simp only [exec_characterReceived hra hl, Host.Outcome.next.injEq]
  refine ⟨fun h => ⟨?_, ?_⟩, fun h => ⟨?_, ?_⟩, fun k h => ⟨?_, fun hn => ?_, fun hn => ?_⟩,
    fun k n got h => ⟨?_, fun hgot => ?_, fun hgot => ⟨fun hsum => ?_, fun hsum => ?_⟩⟩⟩
  · simp only [correctCharacter, h]
  · simp only [correctCharacter, h]
    rw [faultTo_eq, setReceiver_self h]
  · simp only [correctCharacter, h]
  · simp only [correctCharacter, h]
  · simp only [correctCharacter, h, faultTo_eq]
  · simp only [correctCharacter, h, hn, if_true]
  · simp only [correctCharacter, h, hn, faultTo_eq, Bool.false_eq_true, if_false]
  · simp only [correctCharacter, h, faultTo_eq]
  · simp only [correctCharacter, h, payloadCharacter, hgot, if_true]
  · have hcheck : b ≠ (Frame.mk k got).check := fun e => hsum ((eq_check_iff _ b).mp e)
    simp only [correctCharacter, h, payloadCharacter, Nat.not_lt.mpr hgot, hcheck, if_false, faultTo_eq]
  · have hcheck : b = (Frame.mk k got).check := (eq_check_iff _ b).mpr hsum
    have hc : Completing l ⟨k, got⟩ s := ⟨hra, hl, by rw [h]; exact if_pos hgot⟩
    have hstep : correctCharacter l false b s = frameTaken l ⟨k, got⟩ (s.setReceiver l .idle) := by
      simp only [correctCharacter, h, payloadCharacter]
      rw [if_neg (Nat.not_lt.mpr hgot), if_pos hcheck]
    rw [hstep, ← exec_completion hc]
    cases l <;> rfl

/-! ## Receive faults and gaps -/

/-- A receive fault that the assembly state can meet, on an UP link (R177, R178). -/
theorem exec_receiveFault {l : Link} {c : FaultCause} {s : State} {k : LinkFault} {r : Receiver}
    (hra : s.resetAsserted = false) (hl : s.linkOf l = .up) (h : faultEffect c (s.receiverOf l) = some (k, r)) :
    exec (.receiveFault l c) s = .next (faultReported l k (s.setReceiver l r)) := by
  rw [exec_event rfl (by simp) (by simp) hra]
  simp only [eventOf, h]
  rw [if_pos hl, faultTo_eq]

/-- A receive fault that the assembly state cannot meet does not occur. -/
theorem exec_receiveFault_none {l : Link} {c : FaultCause} {s : State} (h : faultEffect c (s.receiverOf l) = none) :
    exec (.receiveFault l c) s = .next s := by
  refine exec_event_idle rfl (by simp) (by simp) ?_
  simp only [eventOf, h]

theorem characterFault_noise {c : LineCharacter} (h : c.getLsbD 0 = true) : characterFault c = none := by
  simp only [characterFault, readCharacter, h, if_true]

theorem characterFault_correct {c : LineCharacter} (hs : c.getLsbD 0 = false) (h : c.getLsbD 11 = true)
    (hp : oddOnes (dataBits (characterData c) ++ [c.getLsbD 9, c.getLsbD 10]) = false) : characterFault c = none := by
  simp only [characterFault, readCharacter, hs, h, hp]
  rfl

theorem exec_frameGapTimeout {l : Link} {s : State} (hra : s.resetAsserted = false) (hl : s.linkOf l = .up) :
    exec (.frameGapTimeout l) s = .next (idleGap l s) := by
  rw [exec_event rfl (by simp) (by simp) hra]
  exact congrArg _ (if_pos hl)

/-- Settles O56. -/
theorem receiveFaultsAndGapsAreReportedOnce : Obligations.ReceiveFaultsAndGapsAreReportedOnce := by
  refine ⟨fun l s hra hl => ⟨fun c => ⟨fun h0 => ?_, fun h0 => ⟨fun h11 => ?_, fun h11 => ⟨fun hp => ?_, fun hp => ?_⟩⟩⟩,
      fun f h => ?_, fun k h => ?_, fun k k' n got h => ?_, fun h => ⟨?_, ?_⟩, fun h => ?_⟩,
    fun l s => ⟨fun hl => ⟨fun c => ?_, ?_⟩, fun h => ?_, fun h => ?_, fun h k => ?_, fun h => ?_⟩⟩
  · exact exec_receiveFault_none (by rw [faultEffect_character, characterFault_noise h0]; rfl)
  · exact exec_receiveFault hra hl (by rw [faultEffect_character, characterFault_framing c h0 h11]; rfl)
  · have hodd := (oddOnes_character c).trans (decide_eq_true hp)
    exact exec_receiveFault hra hl (by rw [faultEffect_character, characterFault_parity c h0 h11 hodd]; rfl)
  · have heven := (oddOnes_character c).trans (decide_eq_false (by omega))
    exact exec_receiveFault_none (by rw [faultEffect_character, characterFault_correct h0 h11 heven]; rfl)
  · exact exec_receiveFault hra hl (by rw [faultEffect_check, h]; rfl)
  · exact exec_receiveFault hra hl (by rw [h]; rfl)
  · rw [exec_frameGapTimeout hra hl, idleGap]
    rcases h with h | h
    · exact ⟨exec_receiveFault hra hl (by rw [h]; rfl), by simp only [h, faultTo_eq]⟩
    · exact ⟨exec_receiveFault hra hl (by rw [h]; rfl), by simp only [h, faultTo_eq]⟩
  · rw [exec_receiveFault hra hl (k := .stray) (r := .idle) (by rw [h]; rfl), setReceiver_self h]
  · rw [exec_frameGapTimeout hra hl, idleGap]
    simp only [h]
  · rw [exec_frameGapTimeout hra hl, idleGap]
    simp only [h]
  · refine exec_event_idle rfl (by simp) (by simp) ?_
    simp only [eventOf]
    split
    · exact if_neg hl
    · rfl
  · exact exec_event_idle rfl (by simp) (by simp) (if_neg hl)
  · exact exec_receiveFault_none (by rw [faultEffect_check, h]; rfl)
  · exact exec_receiveFault_none (faultEffect_length_none h)
  · exact exec_receiveFault_none (faultEffect_truncated_none h k)
  · exact exec_receiveFault_none (faultEffect_stray_none h)

/-! ## A break of a master link -/

/-- The flag set after a break is LINK_FAULT alone, and the line follows its mask (R169, R170, R171). -/
theorem AlertUnit.clear_recordFault (u : AlertUnit) (k : LinkFault) : u.clear.recordFault k = { u with
    flags := 0x0008#16
    lastFault := some k
    alertLine := !u.masks.getLsbD 3 } := by
  have hline : (0x0008#16 &&& ~~~u.masks != 0#16) = !u.masks.getLsbD 3 := by
    have hbit : (0x0008#16 &&& ~~~u.masks).getLsbD 3 = !u.masks.getLsbD 3 := by simp
    cases hm : u.masks.getLsbD 3
    · refine bne_iff_ne.mpr fun h => ?_
      rw [h, hm] at hbit
      cases hbit
    · rw [Bool.not_true, bne_eq_false_iff_eq]
      refine BitVec.eq_of_getLsbD_eq fun i hi => ?_
      rw [BitVec.getLsbD_and, show 0x0008#16 = BitVec.twoPow 16 3 from rfl, BitVec.getLsbD_twoPow]
      by_cases h3 : 3 = i
      · subst h3; simpa using hm
      · simp [h3]
  have hflag : EventFlag.linkFault.bit = 0x0008#16 := by decide
  unfold AlertUnit.recordFault AlertUnit.raise AlertUnit.judge
  simp only [AlertUnit.clear_flags, AlertUnit.clear_masks, AlertUnit.clear_mirrorEnable, BitVec.zero_or, hflag, hline]

theorem MasterPort.linkBroken_eq (m : MasterPort) : m.linkBroken = { m with
    link := .broken
    receiver := .idle
    rxQueue := []
    waitingForRoom := false
    holdoff := false
    replyQueue := []
    mirrorSlot := none
    tx := match m.tx with
      | .sending _ true => .breaking
      | .sending _ false => .idle
      | .idle => .idle
      | .breaking => .breaking
    alert := { m.alert with
      flags := 0x0008#16
      lastFault := some .brk
      alertLine := !m.alert.masks.getLsbD 3 } } := by
  rw [MasterPort.linkBroken, AlertUnit.clear_recordFault]
  obtain ⟨link, receiver, rx, wait, hold, reply, mirror, tx, alert⟩ := m
  rcases tx with _ | ⟨f, b⟩ | _
  · rfl
  · cases b <;> rfl
  · rfl

/-- The hold records removed and the claims orphaned by a break, with the flags of the other port (R22, R64). -/
theorem orphanClaims_removeHolds (p : MasterId) (s : State) : orphanClaims p (removeHolds p s)
    = raiseIf (!(claimsOf s.table p.source).isEmpty) p.other .claimOrphaned
        (raiseIf (s.holds.any fun h => h.heldBy p) p.other .holdRemoved { s with
          holds := s.holds.filter fun h => !h.heldBy p
          table := s.table.map fun e => if e.source = p.source then e.orphan s.config.timing.orphanLifetime else e }) := by
  unfold orphanClaims removeHolds
  cases s.holds.any fun h => h.heldBy p
  · rfl
  · cases p <;> rfl

theorem heldBy_iff (h : HoldRecord) (p : MasterId) : h.heldBy p = true ↔ h.origin = .master ∧ h.holder = p.holder := by
  simp [HoldRecord.heldBy]

/-- An orphaned entry lives on for the orphan lifetime at most (R22). -/
theorem ClaimEntry.orphan_eq (limit : Nat) (e : ClaimEntry) : e.orphan limit = { e with
    lifetime := some (match e.lifetime with
      | none => limit
      | some n => min n limit)
    orphaned := true } := by
  rcases h : e.lifetime with _ | n <;> simp [ClaimEntry.orphan, h]

/-- Settles O57. -/
theorem aMasterLinkBreakEmptiesThePort : Obligations.AMasterLinkBreakEmptiesThePort := by
  refine ⟨fun p s broken held claimed hra hl hheld hclaimed hbroken => ?_,
    fun p s hl => exec_event_idle rfl (by simp) (by simp) (if_neg hl)⟩
  have hh : (s.holds.any fun h => h.heldBy p) = held := by
    rw [Bool.eq_iff_iff, hheld, List.any_eq_true]
    simp only [heldBy_iff]
  have hcl : (!(claimsOf s.table p.source).isEmpty) = claimed := by
    rw [Bool.eq_iff_iff, hclaimed, Bool.not_eq_true', List.isEmpty_eq_false_iff_exists_mem]
    simp [claimsOf]
  have hb : { s.onMaster p MasterPort.linkBroken with
      holds := s.holds.filter fun h => !h.heldBy p
      table := s.table.map fun e =>
        if e.source = p.source then e.orphan (s.onMaster p MasterPort.linkBroken).config.timing.orphanLifetime
        else e } = broken := by
    have hport := congrArg (s.onMaster p) (funext MasterPort.linkBroken_eq)
    rw [hbroken, hport]
    simp only [ClaimEntry.orphan_eq, onMaster_config]
    rfl
  rw [exec_event rfl (by simp) (by simp) hra]
  simp only [eventOf]
  rw [if_pos hl, orphanClaims_removeHolds, onMaster_table, onMaster_holds, hh, hcl]
  exact congrArg
    (fun t => Host.Outcome.next (raiseIf claimed p.other .claimOrphaned (raiseIf held p.other .holdRemoved t))) hb

/-! ## Links up and transmitters going on -/

theorem MasterPort.frameSent_eq {m : MasterPort} {f : Frame} (h : m.tx = .sending f false) :
    m.frameSent = ({ m with tx := .idle }).arbitrate := by
  simp only [MasterPort.frameSent, h]

theorem MasterPort.frameSent_owed {m : MasterPort} {f : Frame} (h : m.tx = .sending f true) :
    m.frameSent = { m with tx := .breaking } := by
  simp only [MasterPort.frameSent, h]

theorem MasterPort.frameSent_idle {m : MasterPort} (h : m.tx = .idle ∨ m.tx = .breaking) : m.frameSent = m := by
  rcases h with h | h <;> simp only [MasterPort.frameSent, h]

theorem MasterPort.breakEnded_eq {m : MasterPort} (h : m.tx = .breaking) :
    m.breakEnded = ({ m with tx := .idle }).arbitrate := by
  simp only [MasterPort.breakEnded, h]

theorem MasterPort.breakEnded_idle {m : MasterPort} (h : m.tx ≠ .breaking) : m.breakEnded = m := by
  unfold MasterPort.breakEnded
  split
  · next ht => exact absurd ht h
  · rfl
  · rfl

theorem AxleUnit.breakEnded_eq {u : AxleUnit} (h : u.tx = .breaking) :
    u.breakEnded = ({ u with tx := .idle }).takePending := by
  simp only [AxleUnit.breakEnded, h]

theorem AxleUnit.breakEnded_idle {u : AxleUnit} (h : u.tx ≠ .breaking) : u.breakEnded = u := by
  unfold AxleUnit.breakEnded
  split
  · next ht => exact absurd ht h
  · rfl
  · rfl

/-- The end of a frame with no break owed, or of a break, frees the transmitter (R167, R182). -/
theorem exec_transmitterFreed {s : State} {p : MasterId} {c : Instr} {f : Frame} (hra : s.resetAsserted = false)
    (h : (c = .masterFrameSent p ∧ (s.master p).tx = .sending f false)
      ∨ (c = .breakSent (.master p) ∧ (s.master p).tx = .breaking)) :
    exec c s = .next (s.onMaster p fun m => ({ m with tx := .idle }).arbitrate) := by
  rcases h with ⟨rfl, ht⟩ | ⟨rfl, ht⟩
  · rw [exec_event rfl (by simp) (by simp) hra]
    exact congrArg _ (onMaster_congr (MasterPort.frameSent_eq ht))
  · rw [exec_event rfl (by simp) (by simp) hra]
    exact congrArg _ (onMaster_congr (MasterPort.breakEnded_eq ht))

/-- Settles O58. -/
theorem linksComeUpAndTransmittersGoOn : Obligations.LinksComeUpAndTransmittersGoOn := by
  refine fun s hra => ⟨fun l hl => ?_, fun p f => ⟨fun ht => ?_, fun c hc => ?_⟩, fun a ht => ?_,
    fun l hl => ?_, fun p => ⟨fun ht => ?_, fun ht => ?_⟩, fun a ht => ?_⟩
  · rw [exec_event rfl (by simp) (by simp) hra]
    exact congrArg _ (if_neg hl)
  · rw [exec_event rfl (by simp) (by simp) hra]
    exact congrArg _ (onMaster_congr (MasterPort.frameSent_owed ht))
  · rw [exec_transmitterFreed hra hc]
    refine ⟨fun r rest hq => ?_, fun rec hq hm => ?_, fun hq hm => ?_⟩
    · exact congrArg _ (onMaster_congr (MasterPort.arbitrate_reply rfl hq))
    · have hrec := MasterPort.arbitrate_mirror (m := { s.master p with tx := .idle }) rfl hq
      rw [hm] at hrec
      exact congrArg _ (onMaster_congr hrec)
    · have hnone := MasterPort.arbitrate_mirror (m := { s.master p with tx := .idle }) rfl hq
      rw [hm] at hnone
      refine congrArg _ (onMaster_congr (hnone.trans ?_))
      rw [hm]
      rfl
  · rw [exec_event rfl (by simp) (by simp) hra, onAxle_onAxle]
    exact congrArg _ (onAxle_congr (AxleUnit.breakEnded_eq ht))
  · exact exec_event_idle rfl (by simp) (by simp) (if_pos hl)
  · exact exec_event_idle rfl (by simp) (by simp)
      ((onMaster_congr (MasterPort.frameSent_idle ht)).trans (onMaster_self s p))
  · exact exec_event_idle rfl (by simp) (by simp)
      ((onMaster_congr (MasterPort.breakEnded_idle ht)).trans (onMaster_self s p))
  · exact exec_event_idle rfl (by simp) (by simp)
      ((onAxle_congr (AxleUnit.breakEnded_idle ht)).trans (onAxle_self s a))

end Sys2Proof.Machine
end

section
/-! PROOFS. Frames on the wire: a frame sent by characters (O59) and the requests in their frames (O60). -/

namespace Sys2Proof.Machine

/-! ## A frame sent by characters -/

theorem run_succ {s t : State} (n : Nat) (h : step s = .next t) : Sys2Proof.core.run (n + 1) s = Sys2Proof.core.run n t := by
  have hcore : Sys2Proof.core.step s = .next t := h
  simp only [Host.Core.run, hcore]

theorem setReceiver_setReceiver (s : State) (l : Link) (r r' : Receiver) :
    (s.setReceiver l r).setReceiver l r' = s.setReceiver l r' := by
  rcases l with p | a
  · cases p <;> rfl
  · cases a <;> rfl

/-- The row of a correct character on a master link. -/
def arrival (p : MasterId) (marked : Bool) (b : Byte) : Instr :=
  .characterReceived (.master p) marked b

/-- The commands of a frame sent character by character: its kind marked, the rest unmarked (R173, R176). -/
theorem arrivals_characters (p : MasterId) (f : Frame) :
    (f.characters.map fun c => Instr.characterReceived (.master p) (c.getLsbD 9) (characterData c))
      = arrival p true f.kind :: arrival p false (byteOf f.payload.length)
        :: (f.payload ++ [f.check]).map (arrival p false) := by
  simp only [Frame.characters, List.map_cons, List.map_map, List.cons_append, Function.comp_def, lineCharacter_mark,
    characterData_lineCharacter]
  rfl

/-- A character at the front of the queue acts on the receiver of its link. -/
theorem step_arrival {p : MasterId} {marked : Bool} {b : Byte} {rest : List Instr} {s : State} (r : Receiver)
    (hra : s.resetAsserted = false) (hl : (s.master p).link = .up) (hp : s.pending = arrival p marked b :: rest) :
    step (s.setReceiver (.master p) r)
      = .next (correctCharacter (.master p) marked b ({ s with pending := rest }.setReceiver (.master p) r)) := by
  have hstep : step (s.setReceiver (.master p) r)
      = exec (arrival p marked b) ({ s with pending := rest }.setReceiver (.master p) r) := by
    rw [step, setReceiver_pending, hp]
    cases p <;> rfl
  rw [hstep]
  refine exec_characterReceived ?_ ?_ marked b
  · rw [setReceiver_resetAsserted]; exact hra
  · rw [linkOf_setReceiver]
    cases p <;> exact hl

section
variable {p : MasterId} {k b : Byte} {n : Nat} {got : List Byte} {rest : List Instr} {s : State}

/-- A kind character begins a frame (R177). -/
theorem step_kindCharacter (hra : s.resetAsserted = false) (hl : (s.master p).link = .up)
    (hp : s.pending = arrival p true b :: rest) :
    step (s.setReceiver (.master p) .idle) = .next ({ s with pending := rest }.setReceiver (.master p) (.awaitLength b)) := by
  rw [step_arrival _ hra hl hp]
  simp only [correctCharacter, receiverOf_setReceiver, setReceiver_setReceiver]

/-- A length allowed for the kind is followed by the payload (R177, R179). -/
theorem step_lengthCharacter (hra : s.resetAsserted = false) (hl : (s.master p).link = .up)
    (hp : s.pending = arrival p false b :: rest) (hallowed : lengthAllowed (.master p) k b.toNat = true) :
    step (s.setReceiver (.master p) (.awaitLength k))
      = .next ({ s with pending := rest }.setReceiver (.master p) (.awaitPayload k b.toNat [])) := by
  rw [step_arrival _ hra hl hp]
  simp only [correctCharacter, receiverOf_setReceiver, setReceiver_setReceiver, hallowed, if_true]

/-- A payload byte is kept (R177). -/
theorem step_payloadCharacter (hra : s.resetAsserted = false) (hl : (s.master p).link = .up)
    (hp : s.pending = arrival p false b :: rest) (hgot : got.length < n) :
    step (s.setReceiver (.master p) (.awaitPayload k n got))
      = .next ({ s with pending := rest }.setReceiver (.master p) (.awaitPayload k n (got ++ [b]))) := by
  rw [step_arrival _ hra hl hp]
  simp only [correctCharacter, receiverOf_setReceiver, setReceiver_setReceiver, payloadCharacter, hgot, if_true]

/-- The correct check character hands the frame inward (R177, R180). -/
theorem step_checkCharacter (hra : s.resetAsserted = false) (hl : (s.master p).link = .up)
    (hp : s.pending = arrival p false (Frame.mk k got).check :: rest) :
    step (s.setReceiver (.master p) (.awaitPayload k got.length got))
      = .next (masterFrameTaken p ⟨k, got⟩ ({ s with pending := rest }.setReceiver (.master p) .idle)) := by
  rw [step_arrival _ hra hl hp]
  simp only [correctCharacter, receiverOf_setReceiver, setReceiver_setReceiver, payloadCharacter, Nat.lt_irrefl,
    if_false, if_true, frameTaken]

end

/-- The payload and the check character complete the frame (R176, R177), by induction on the bytes still to come. -/
theorem run_payload (p : MasterId) (k : Byte) (rest : List Byte) : ∀ (got : List Byte) (s : State),
    s.resetAsserted = false → (s.master p).link = .up →
    s.pending = (rest ++ [(Frame.mk k (got ++ rest)).check]).map (arrival p false) →
    Sys2Proof.core.run (rest.length + 1) (s.setReceiver (.master p) (.awaitPayload k (got.length + rest.length) got))
      = .next (masterFrameTaken p ⟨k, got ++ rest⟩ ({ s with pending := [] }.setReceiver (.master p) .idle)) := by
  induction rest with
  | nil =>
    intro got s hra hl hp
    rw [List.append_nil] at hp ⊢
    exact run_succ 0 (step_checkCharacter hra hl hp)
  | cons b rest ih =>
    intro got s hra hl hp
    have hnext := ih (got ++ [b])
      { s with pending := (rest ++ [(Frame.mk k (got ++ b :: rest)).check]).map (arrival p false) } hra
      (by rw [master_mk]; exact hl) (by simp)
    have hstep := step_payloadCharacter (k := k) (n := got.length + (rest.length + 1)) (got := got) hra hl hp (by omega)
    rw [List.append_assoc, List.singleton_append, List.length_append, List.length_singleton, Nat.add_assoc,
      Nat.add_comm 1] at hnext
    rw [List.length_cons, run_succ _ hstep]
    exact hnext

theorem onMaster_pending_update (s : State) (p : MasterId) (g : MasterPort → MasterPort) (ps : List Instr) :
    { s with pending := ps }.onMaster p g = { s.onMaster p g with pending := ps } := by
  cases p <;> rfl

/-- The characters of a well-formed frame hand it inward (R177, R180). -/
theorem run_characters {p : MasterId} {f : Frame} {s : State} (hf : f.wellFormed (.master p) = true)
    (hra : s.resetAsserted = false) (hl : (s.master p).link = .up) (hidle : (s.master p).receiver = .idle)
    (hp : s.pending = f.characters.map fun c => .characterReceived (.master p) (c.getLsbD 9) (characterData c)) :
    Sys2Proof.core.run f.characters.length s = .next (masterFrameTaken p f { s with pending := [] }) := by
  obtain ⟨hlen, hallowed⟩ : f.payload.length ≤ 24 ∧ lengthAllowed (.master p) f.kind f.payload.length = true := by
    simpa [Frame.wellFormed, Config.maxPayload] using hf
  have hcount : (byteOf f.payload.length).toNat = f.payload.length := by
    rw [byteOf_toNat]; omega
  have hsteps : f.characters.length = f.payload.length + 1 + 1 + 1 := by simp [Frame.characters]
  have hidleOf : ({ s with pending := [] } : State).setReceiver (.master p) .idle = { s with pending := [] } :=
    setReceiver_self (by rw [State.receiverOf, master_mk]; exact hidle)
  have hidle' : s.setReceiver (.master p) .idle = s := setReceiver_self hidle
  rw [arrivals_characters] at hp
  have hkind := step_kindCharacter hra hl hp
  rw [hidle'] at hkind
  have hlength := step_lengthCharacter (k := f.kind)
    (s := { s with pending := (byteOf f.payload.length :: (f.payload ++ [f.check])).map (arrival p false) }) hra
    (by rw [master_mk]; exact hl) rfl (by rwa [hcount])
  rw [hcount] at hlength
  have hpayload := run_payload p f.kind f.payload [] { s with pending := (f.payload ++ [f.check]).map (arrival p false) } hra
    (by rw [master_mk]; exact hl) rfl
  rw [List.length_nil, Nat.zero_add] at hpayload
  rw [hidleOf] at hpayload
  rw [hsteps]
  exact (run_succ _ hkind).trans ((run_succ _ hlength).trans hpayload)

/-- Settles O59. -/
theorem aFrameSentByCharactersJoinsTheQueue : Obligations.AFrameSentByCharactersJoinsTheQueue := by
  refine ⟨fun f check h => ?_, fun p f s hf hra hl hidle hp => ⟨fun hroom => ?_, fun hfull => ?_⟩⟩
  · rw [(eq_check_iff f check).mpr h]
    rfl
  · rw [run_characters hf hra hl hidle hp, masterFrameTaken_room (by rw [master_mk]; exact hroom), onMaster_pending_update]
  · rw [run_characters hf hra hl hidle hp, masterFrameTaken_full (by rw [master_mk]; exact hfull)]
    cases p <;> rfl

/-! ## Fields read back -/

theorem extractLsb'_append (h : Half) : h.extractLsb' 8 8 ++ h.extractLsb' 0 8 = h := by
  refine BitVec.eq_of_getLsbD_eq fun i hi => ?_
  rw [BitVec.getLsbD_append]
  by_cases h8 : i < 8
  · simp [h8]
  · rw [if_neg h8, BitVec.getLsbD_extractLsb', Nat.add_sub_cancel' (Nat.not_lt.mp h8)]
    simp only [decide_eq_true (show i - 8 < 8 by omega), Bool.true_and]

section
variable {f : Frame} {i : Nat}

theorem halfAt_eq {h : Half} (hb : [f.byteAt i, f.byteAt (i + 1)] = halfBytes h) : f.halfAt i = h := by
  obtain ⟨hhi, hlo⟩ : f.byteAt i = h.extractLsb' 8 8 ∧ f.byteAt (i + 1) = h.extractLsb' 0 8 := by
    simpa [halfBytes] using hb
  rw [Frame.halfAt, hhi, hlo, extractLsb'_append]

/-- A signed field is read back as sent (R176). -/
theorem signedAt_eq {v : Int} (hb : [f.byteAt i, f.byteAt (i + 1)] = signedBytes v) (hv : carriedSigned v = true) :
    f.signedAt i = v := by
  obtain ⟨hlo, hhi⟩ := of_decide_eq_true hv
  rw [Frame.signedAt, halfAt_eq hb, BitVec.toInt_ofInt]
  exact Int.bmod_eq_of_le (by norm_num; omega) (by norm_num; omega)

/-- An unsigned two-byte field is read back as sent (R176). -/
theorem unsignedAt_eq {n : Nat} (hb : [f.byteAt i, f.byteAt (i + 1)] = unsignedBytes n)
    (hn : carriedUnsigned n = true) : f.unsignedAt i = n := by
  rw [Frame.unsignedAt, halfAt_eq hb, BitVec.toNat_ofNat]
  exact Nat.mod_eq_of_lt (of_decide_eq_true hn)

theorem byteOf_carried {n : Nat} (hn : carriedByte n = true) : (byteOf n).toNat = n := by
  rw [byteOf_toNat]
  exact Nat.mod_eq_of_lt (of_decide_eq_true hn)

/-- A one-byte field is read back as sent. -/
theorem natAt_eq {n : Nat} (hb : f.byteAt i = byteOf n) (hn : carriedByte n = true) : f.natAt i = n := by
  rw [Frame.natAt, hb, byteOf_carried hn]

end

/-- A list of two-byte fields is read back as sent (R183). -/
theorem unsignedList_flatMap {vs : List Nat} (h : vs.all carriedUnsigned = true) :
    unsignedList (vs.flatMap unsignedBytes) = vs := by
  induction vs with
  | nil => rfl
  | cons v vs ih =>
    obtain ⟨hv, hvs⟩ : carriedUnsigned v = true ∧ vs.all carriedUnsigned = true := by simpa using h
    rw [List.flatMap_cons]
    show (_ ++ _ : Half).toNat :: unsignedList (vs.flatMap unsignedBytes) = v :: vs
    rw [extractLsb'_append, ih hvs, BitVec.toNat_ofNat]
    exact congrArg (· :: vs) (Nat.mod_eq_of_lt (of_decide_eq_true hv))

/-- A list of breakpoints is read back as sent (R183). -/
theorem map_byteOf_toNat {bands : List Nat} (h : bands.all carriedByte = true) :
    (bands.map byteOf).map BitVec.toNat = bands := by
  rw [List.map_map]
  exact (List.map_congr_left fun n hn => byteOf_carried (List.all_eq_true.mp h n hn)).trans (List.map_id _)

/-! ## The requests in their frames -/

/-- The row that takes a request's frame is the request's own. -/
theorem decodeRequest_frame (p : MasterId) (r : Request) : decodeRequest p r.frame = r.command p := by
  cases r <;> rfl

theorem readDemand_frame {d : DemandFields} (h : (Request.demand d).wellFormed = true) :
    readDemand (Request.demand d).frame = d := by
  simp only [Request.wellFormed, Bool.and_eq_true] at h
  obtain ⟨⟨htotal, hspeed⟩, hload⟩ := h
  exact (DemandFields.mk.injEq ..).mpr ⟨rfl, signedAt_eq rfl htotal, signedAt_eq rfl hspeed, natAt_eq rfl hload, rfl⟩

theorem readClaim_frame {c : ClaimFields} (h : (Request.claim c).wellFormed = true) :
    readClaim (Request.claim c).frame = c := by
  simp only [Request.wellFormed, Bool.and_eq_true] at h
  obtain ⟨hvalue, hlifetime⟩ := h
  exact (ClaimFields.mk.injEq ..).mpr ⟨rfl, rfl, signedAt_eq rfl hvalue, natAt_eq rfl hlifetime, rfl, rfl⟩

theorem readHold_frame {x : HoldFields} (h : (Request.hold x).wellFormed = true) :
    readHold (Request.hold x).frame = x :=
  (HoldFields.mk.injEq ..).mpr ⟨rfl, unsignedAt_eq rfl h, rfl⟩

theorem readEnvelope_frame {e : Envelope} (h : (Request.envelope e).wellFormed = true) :
    readEnvelope (Request.envelope e).frame = e := by
  simp only [Request.wellFormed, Bool.and_eq_true] at h
  obtain ⟨⟨⟨⟨⟨hfu, hfl⟩, hru⟩, hrl⟩, htu⟩, htl⟩ := h
  exact (Envelope.mk.injEq ..).mpr ⟨signedAt_eq rfl hfu, signedAt_eq rfl hfl, signedAt_eq rfl hru, signedAt_eq rfl hrl,
    signedAt_eq rfl htu, signedAt_eq rfl htl⟩

/-- The six choices of a POLICY section are read back from their codes (R153, R183). -/
theorem readPolicy_frame (q : Policy) : readPolicy (Request.policy q).frame = some q := by
  obtain ⟨upper, lower, ceiling, floor, demand, stability⟩ := q
  have hu : readChoice .clamp .refuse (choiceByte (upper = .refuse)) = some upper := by cases upper <;> rfl
  have hl : readChoice .clamp .refuse (choiceByte (lower = .refuse)) = some lower := by cases lower <;> rfl
  have hc : readChoice .spill .shed (choiceByte (ceiling = .shed)) = some ceiling := by cases ceiling <;> rfl
  have hf : readChoice .spill .shed (choiceByte (floor = .shed)) = some floor := by cases floor <;> rfl
  have hd : readChoice .replace .tighten (choiceByte (demand = .tighten)) = some demand := by cases demand <;> rfl
  have hs : readChoice .replace .tighten (choiceByte (stability = .tighten)) = some stability := by cases stability <;> rfl
  simp only [readPolicy, Frame.byteAt, Request.frame, List.getD_cons_succ, List.getD_cons_zero, hu, hl, hc, hf, hd, hs]
  rfl

theorem readMotion_frame {m : Motion} (h : (Request.motion m).wellFormed = true) :
    readMotion (Request.motion m).frame = m := by
  simp only [Request.wellFormed, Bool.and_eq_true] at h
  obtain ⟨⟨⟨hshare, hfront⟩, hrear⟩, hlapse⟩ := h
  exact (Motion.mk.injEq ..).mpr ⟨unsignedAt_eq rfl hshare, unsignedAt_eq rfl hfront, unsignedAt_eq rfl hrear,
    unsignedAt_eq rfl hlapse⟩

theorem readTiming_frame {t : Timing} (h : (Request.timing t).wellFormed = true) :
    readTiming (Request.timing t).frame = t := by
  simp only [Request.wellFormed, Bool.and_eq_true] at h
  obtain ⟨⟨⟨⟨⟨htime, hstep⟩, hwindow⟩, hmiss⟩, hrejoin⟩, horphan⟩ := h
  exact (Timing.mk.injEq ..).mpr ⟨natAt_eq rfl htime, natAt_eq rfl hstep, natAt_eq rfl hwindow, natAt_eq rfl hmiss,
    natAt_eq rfl hrejoin, natAt_eq rfl horphan⟩

theorem bands_wellFormed {bands : List Nat} (h : (decide (bands.length ≤ 11) && bands.all carriedByte) = true) :
    bands.length ≤ 11 ∧ bands.all carriedByte = true := by
  simpa only [Bool.and_eq_true, decide_eq_true_eq] using h

/-- A MAP WRITE's sizes and fields, where its layout carries them (R183). -/
theorem mapWrite_wellFormed {w : MapWriteFields} (h : (Request.mapWrite w).wellFormed = true) :
    carriedByte w.row = true ∧ carriedByte w.column = true ∧ carriedByte w.count = true ∧ w.values.length ≤ 8
      ∧ w.values.all carriedUnsigned = true := by
  simpa only [Request.wellFormed, Bool.and_eq_true, decide_eq_true_eq, and_assoc] using h

theorem readMapWrite_frame {w : MapWriteFields} (h : (Request.mapWrite w).wellFormed = true) :
    readMapWrite (Request.mapWrite w).frame = w := by
  obtain ⟨hrow, hcolumn, hcount, -, hvalues⟩ := mapWrite_wellFormed h
  exact (MapWriteFields.mk.injEq ..).mpr ⟨natAt_eq rfl hrow, natAt_eq rfl hcolumn, natAt_eq rfl hcount,
    unsignedList_flatMap hvalues⟩

/-- A request is read back from its frame, field by field (R183). -/
theorem readRequest_frame {r : Request} (h : r.wellFormed = true) : readRequest r.frame = some r := by
  cases r with
  | demand d => exact congrArg (some ∘ Request.demand) (readDemand_frame h)
  | claim c => exact congrArg (some ∘ Request.claim) (readClaim_frame h)
  | release axle kind => rfl
  | releaseAll => rfl
  | hold x => exact congrArg (some ∘ Request.hold) (readHold_frame h)
  | resume => rfl
  | envelope e => exact congrArg (some ∘ Request.envelope) (readEnvelope_frame h)
  | policy q => exact congrArg (Option.map Request.policy) (readPolicy_frame q)
  | motion m => exact congrArg (some ∘ Request.motion) (readMotion_frame h)
  | timing t => exact congrArg (some ∘ Request.timing) (readTiming_frame h)
  | loadBands bands =>
    obtain ⟨-, hbands⟩ := bands_wellFormed h
    exact congrArg (some ∘ Request.loadBands) (map_byteOf_toNat hbands)
  | speedBands bands =>
    obtain ⟨-, hbands⟩ := bands_wellFormed h
    exact congrArg (some ∘ Request.speedBands) (map_byteOf_toNat hbands)
  | alert masks mirror =>
    exact congrArg (fun x => some (Request.alert x mirror)) (halfAt_eq (i := 1) (f := (Request.alert masks mirror).frame) rfl)
  | mapWrite w => exact congrArg (some ∘ Request.mapWrite) (readMapWrite_frame h)
  | mapFill v =>
    exact congrArg (some ∘ Request.mapFill) (unsignedAt_eq (i := 0) (f := (Request.mapFill v).frame) rfl h)
  | mapRead row => exact congrArg (some ∘ Request.mapRead) (natAt_eq (i := 0) (f := (Request.mapRead row).frame) rfl h)
  | status => rfl
  | listClaims start =>
    exact congrArg (some ∘ Request.listClaims) (natAt_eq (i := 0) (f := (Request.listClaims start).frame) rfl h)
  | listHolds => rfl
  | restart => rfl

/-- A frame is accepted where its length is allowed for its kind (R176, R179). -/
theorem wellFormed_iff (l : Link) (f : Frame) :
    f.wellFormed l = true ↔ lengthAllowed l f.kind f.payload.length = true := by
  simp only [Frame.wellFormed, Bool.and_eq_true, lengthAllowed]
  exact and_iff_right_of_imp fun h => h.1

theorem lengthAllowed_configure (p : MasterId) (n : Nat) :
    lengthAllowed (.master p) Kind.configure n = true ↔ 1 ≤ n ∧ n ≤ 13 :=
  lengthAllowed_master p Kind.configure n

theorem lengthAllowed_mapWrite (p : MasterId) (n : Nat) :
    lengthAllowed (.master p) Kind.mapWrite n = true ↔ 3 ≤ n ∧ n ≤ 19 :=
  lengthAllowed_master p Kind.mapWrite n

/-- A section of breakpoints fits its frame (R179). -/
theorem bands_length {bands : List Nat} (h : bands.length ≤ 11) (b : Byte) :
    1 ≤ ([b, byteOf bands.length] ++ bands.map byteOf).length
      ∧ ([b, byteOf bands.length] ++ bands.map byteOf).length ≤ 13 := by
  rw [List.length_append, List.length_map, List.length_cons, List.length_singleton]
  omega

theorem flatMap_unsignedBytes_length (vs : List Nat) : (vs.flatMap unsignedBytes).length = 2 * vs.length := by
  induction vs with
  | nil => rfl
  | cons v vs ih => rw [List.flatMap_cons, List.length_append, ih, List.length_cons]; show 2 + _ = _; omega

/-- A request's frame has a length that the receiver allows (R179). -/
theorem frame_wellFormed {r : Request} (h : r.wellFormed = true) (p : MasterId) : r.frame.wellFormed (.master p) = true := by
  rw [wellFormed_iff]
  cases r with
  | loadBands bands =>
    obtain ⟨hlen, -⟩ := bands_wellFormed h
    exact (lengthAllowed_configure p _).mpr (bands_length hlen 5#8)
  | speedBands bands =>
    obtain ⟨hlen, -⟩ := bands_wellFormed h
    exact (lengthAllowed_configure p _).mpr (bands_length hlen 6#8)
  | mapWrite w =>
    obtain ⟨-, -, -, hlen, -⟩ := mapWrite_wellFormed h
    refine (lengthAllowed_mapWrite p _).mpr ?_
    rw [Request.frame, List.length_append, flatMap_unsignedBytes_length]
    simp only [List.length_cons, List.length_nil]
    omega
  | _ => rfl

/-- Settles O60. -/
theorem requestsSurviveTheirFrames : Obligations.RequestsSurviveTheirFrames :=
  fun r h => ⟨readRequest_frame h, fun p => decodeRequest_frame p r, frame_wellFormed h⟩

end Sys2Proof.Machine
end
